-- ==== Sys2Proof/Word.lean ====
section
/-! DEFINITION. The word types of the machine (00_scope.md R2, R8: unsigned bit vectors throughout). -/

namespace Sys2Proof

/-- A data operand, W or one file register (R2, R75). -/
abbrev Byte := BitVec 8

/-- An instruction word, one value with no byte order (R76, R100). -/
abbrev InstrWord := BitVec 14

/-- A program address: the number of an instruction word (R23). -/
abbrev ProgAddr := BitVec 13

/-- The 7-bit file address field (R22, R102). -/
abbrev FileAddr := BitVec 7

end Sys2Proof
end

