-- ==== Sys2Proof/Syntax.lean ====
section
/-! DEFINITION. The 37 instructions of 30_encoding.md R104, one constructor each, in the order of the opcode table.
TRIS has two rows there so that the table is disjoint and is one instruction with the operand w[2:0] (R104, R212). -/

namespace Sys2Proof

/-- The destination select d (R10): 0 is W, 1 is the file register. -/
inductive Dest where
  | w
  | f
deriving DecidableEq, Repr

/-- The instruction set (R104). -/
inductive Instr where
  | addwf (f : FileAddr) (d : Dest)
  | andwf (f : FileAddr) (d : Dest)
  | clrf (f : FileAddr)
  | clrw
  | comf (f : FileAddr) (d : Dest)
  | decf (f : FileAddr) (d : Dest)
  | decfsz (f : FileAddr) (d : Dest)
  | incf (f : FileAddr) (d : Dest)
  | incfsz (f : FileAddr) (d : Dest)
  | iorwf (f : FileAddr) (d : Dest)
  | movf (f : FileAddr) (d : Dest)
  | movwf (f : FileAddr)
  | nop
  | rlf (f : FileAddr) (d : Dest)
  | rrf (f : FileAddr) (d : Dest)
  | subwf (f : FileAddr) (d : Dest)
  | swapf (f : FileAddr) (d : Dest)
  | xorwf (f : FileAddr) (d : Dest)
  | bcf (f : FileAddr) (b : BitVec 3)
  | bsf (f : FileAddr) (b : BitVec 3)
  | btfsc (f : FileAddr) (b : BitVec 3)
  | btfss (f : FileAddr) (b : BitVec 3)
  | addlw (k : Byte)
  | andlw (k : Byte)
  | call (k : BitVec 11)
  | clrwdt
  | goto (k : BitVec 11)
  | iorlw (k : Byte)
  | movlw (k : Byte)
  | retfie
  | retlw (k : Byte)
  | ret
  | sleep
  | sublw (k : Byte)
  | xorlw (k : Byte)
  | option
  | tris (f : BitVec 3)
deriving DecidableEq, Repr

end Sys2Proof
end

