-- ==== Sys2Proof/WellFormed.lean ====
section
/-! DEFINITION. Which instruction terms the operand ranges of 30_encoding.md R111 admit. Every range but TRIS's is the
whole of its field and is carried by the field's width. -/

namespace Sys2Proof

/-- The operand ranges of R111: `5 ≤ f ≤ 7` for TRIS; every other range is the field's own. -/
def Instr.wf : Instr → Bool
  | .addwf _ _ | .andwf _ _ | .clrf _ | .clrw | .comf _ _ | .decf _ _ | .decfsz _ _ | .incf _ _ | .incfsz _ _
  | .iorwf _ _ | .movf _ _ | .movwf _ | .nop | .rlf _ _ | .rrf _ _ | .subwf _ _ | .swapf _ _ | .xorwf _ _
  | .bcf _ _ | .bsf _ _ | .btfsc _ _ | .btfss _ _
  | .addlw _ | .andlw _ | .call _ | .clrwdt | .goto _ | .iorlw _ | .movlw _ | .retfie | .retlw _ | .ret | .sleep
  | .sublw _ | .xorlw _ | .option => true
  | .tris f => decide (5 ≤ f.toNat)

end Sys2Proof
end

