-- ==== Sys2Proof/Decode.lean ====
section
/-! DEFINITION. The decoder of 30_encoding.md R102 to R106, total on the 16384 words, and the encoder of R114. -/

namespace Sys2Proof

/-- Why a word is no instruction: it matches no row of R104 (R106). -/
inductive DecodeError where
  | reserved (w : InstrWord)
deriving DecidableEq, Repr

/-- f = w[6:0] (R102). -/
def fieldF (w : InstrWord) : FileAddr := w.extractLsb' 0 7

/-- d = w[7] (R10, R102). -/
def fieldD (w : InstrWord) : Dest := if w.getLsbD 7 then .f else .w

/-- b = w[9:7] (R102). -/
def fieldB (w : InstrWord) : BitVec 3 := w.extractLsb' 7 3

/-- The 8-bit literal k = w[7:0] (R102). -/
def fieldK (w : InstrWord) : Byte := w.extractLsb' 0 8

/-- The 11-bit address k = w[10:0] (R102). -/
def fieldAddr (w : InstrWord) : BitVec 11 := w.extractLsb' 0 11

/-- The words with w[13:7] = 0: formats CTRL and TRIS, selected by w[6:0] (R103, R104, R109). -/
def decodeControl (w : InstrWord) : Except DecodeError Instr :=
  match (w.extractLsb' 0 7).toNat with
  | 0x00 | 0x20 | 0x40 | 0x60 => .ok .nop
  | 0x08 => .ok .ret
  | 0x09 => .ok .retfie
  | 0x62 => .ok .option
  | 0x63 => .ok .sleep
  | 0x64 => .ok .clrwdt
  | 0x65 | 0x66 | 0x67 => .ok (.tris (w.extractLsb' 0 3))
  | _ => .error (.reserved w)

/-- The words with w[13:12] = 0b00: format BYTE by w[11:8], and by w[7] where that leaves two (R103). -/
def decodeByteOriented (w : InstrWord) : Except DecodeError Instr :=
  match (w.extractLsb' 8 4).toNat with
  | 0x0 => if w.getLsbD 7 then .ok (.movwf (fieldF w)) else decodeControl w
  | 0x1 => if w.getLsbD 7 then .ok (.clrf (fieldF w)) else .ok .clrw
  | 0x2 => .ok (.subwf (fieldF w) (fieldD w))
  | 0x3 => .ok (.decf (fieldF w) (fieldD w))
  | 0x4 => .ok (.iorwf (fieldF w) (fieldD w))
  | 0x5 => .ok (.andwf (fieldF w) (fieldD w))
  | 0x6 => .ok (.xorwf (fieldF w) (fieldD w))
  | 0x7 => .ok (.addwf (fieldF w) (fieldD w))
  | 0x8 => .ok (.movf (fieldF w) (fieldD w))
  | 0x9 => .ok (.comf (fieldF w) (fieldD w))
  | 0xA => .ok (.incf (fieldF w) (fieldD w))
  | 0xB => .ok (.decfsz (fieldF w) (fieldD w))
  | 0xC => .ok (.rrf (fieldF w) (fieldD w))
  | 0xD => .ok (.rlf (fieldF w) (fieldD w))
  | 0xE => .ok (.swapf (fieldF w) (fieldD w))
  | _ => .ok (.incfsz (fieldF w) (fieldD w))

/-- The words with w[13:12] = 0b01: format BIT by w[11:10] (R103). -/
def decodeBitOriented (w : InstrWord) : Except DecodeError Instr :=
  match (w.extractLsb' 10 2).toNat with
  | 0 => .ok (.bcf (fieldF w) (fieldB w))
  | 1 => .ok (.bsf (fieldF w) (fieldB w))
  | 2 => .ok (.btfsc (fieldF w) (fieldB w))
  | _ => .ok (.btfss (fieldF w) (fieldB w))

/-- The words with w[13:12] = 0b11: format LIT by w[11:8]; 0b1011 is unassigned (R103, R105, R109). -/
def decodeLiteral (w : InstrWord) : Except DecodeError Instr :=
  match (w.extractLsb' 8 4).toNat with
  | 0x0 | 0x1 | 0x2 | 0x3 => .ok (.movlw (fieldK w))
  | 0x4 | 0x5 | 0x6 | 0x7 => .ok (.retlw (fieldK w))
  | 0x8 => .ok (.iorlw (fieldK w))
  | 0x9 => .ok (.andlw (fieldK w))
  | 0xA => .ok (.xorlw (fieldK w))
  | 0xB => .error (.reserved w)
  | 0xC | 0xD => .ok (.sublw (fieldK w))
  | _ => .ok (.addlw (fieldK w))

/-- Decoding (R103): the instruction of the one row that a word matches, or the word named as reserved (R106). -/
def decode (w : InstrWord) : Except DecodeError Instr :=
  match (w.extractLsb' 12 2).toNat with
  | 0 => decodeByteOriented w
  | 1 => decodeBitOriented w
  | 2 => if w.getLsbD 11 then .ok (.goto (fieldAddr w)) else .ok (.call (fieldAddr w))
  | _ => decodeLiteral w

/-- The bit of the destination select. -/
def destBit : Dest → BitVec 1
  | .w => 0#1
  | .f => 1#1

/-- Format BYTE: opcode (6 bits), d, f (R101). -/
def wordByte (op : BitVec 6) (d : Dest) (f : FileAddr) : InstrWord := op ++ destBit d ++ f

/-- Format BIT: opcode (4 bits), b, f (R101). -/
def wordBit (op : BitVec 4) (b : BitVec 3) (f : FileAddr) : InstrWord := op ++ b ++ f

/-- Format LIT: opcode (6 bits), k (R101). -/
def wordLit (op : BitVec 6) (k : Byte) : InstrWord := op ++ k

/-- Format JUMP: opcode (3 bits), k (R101). -/
def wordJump (op : BitVec 3) (k : BitVec 11) : InstrWord := op ++ k

/-- The canonical word of an instruction, don't-care bits 0 (R114). -/
def encode : Instr → InstrWord
  | .addwf f d => wordByte 0b000111#6 d f
  | .andwf f d => wordByte 0b000101#6 d f
  | .clrf f => wordByte 0b000001#6 .f f
  | .clrw => 0x0100#14
  | .comf f d => wordByte 0b001001#6 d f
  | .decf f d => wordByte 0b000011#6 d f
  | .decfsz f d => wordByte 0b001011#6 d f
  | .incf f d => wordByte 0b001010#6 d f
  | .incfsz f d => wordByte 0b001111#6 d f
  | .iorwf f d => wordByte 0b000100#6 d f
  | .movf f d => wordByte 0b001000#6 d f
  | .movwf f => wordByte 0b000000#6 .f f
  | .nop => 0x0000#14
  | .rlf f d => wordByte 0b001101#6 d f
  | .rrf f d => wordByte 0b001100#6 d f
  | .subwf f d => wordByte 0b000010#6 d f
  | .swapf f d => wordByte 0b001110#6 d f
  | .xorwf f d => wordByte 0b000110#6 d f
  | .bcf f b => wordBit 0b0100#4 b f
  | .bsf f b => wordBit 0b0101#4 b f
  | .btfsc f b => wordBit 0b0110#4 b f
  | .btfss f b => wordBit 0b0111#4 b f
  | .addlw k => wordLit 0b111110#6 k
  | .andlw k => wordLit 0b111001#6 k
  | .call k => wordJump 0b100#3 k
  | .clrwdt => 0x0064#14
  | .goto k => wordJump 0b101#3 k
  | .iorlw k => wordLit 0b111000#6 k
  | .movlw k => wordLit 0b110000#6 k
  | .retfie => 0x0009#14
  | .retlw k => wordLit 0b110100#6 k
  | .ret => 0x0008#14
  | .sleep => 0x0063#14
  | .sublw k => wordLit 0b111100#6 k
  | .xorlw k => wordLit 0b111010#6 k
  | .option => 0x0062#14
  | .tris f => 0b00000001100#11 ++ f

/-- The instruction the decoder reads from the opcode table's numbering of its bits: one 14-bit word, bit 0 the least
significant; a number that needs more than 14 bits is no instruction word (R100). -/
def decodeTableWord (_nbits w : Nat) : Option Instr :=
  if w < 2 ^ 14 then
    match decode (BitVec.ofNat 14 w) with
    | .ok i => some i
    | .error _ => none
  else none

end Sys2Proof
end

