-- ==== Sys2Proof/Config.lean ====
section
/-! DEFINITION. The OPEN parameters of 00_scope.md R4 as one plain record, their P84 defaults (10_state.md
section 9), and the free values. R5: a claim either quantifies over a parameter or names the value it assumes;
`Config` is therefore a field of State, and no instruction's meaning names a P84 value. -/

namespace Sys2Proof

/-- A TRIS register or an I/O register, by its number 5, 6 or 7 (R37, R212). -/
inductive PortNum where
  | p5 | p6 | p7
deriving DecidableEq, Repr

/-- One byte for each of the registers 5, 6 and 7. -/
structure Ports where
  p5 : Byte
  p6 : Byte
  p7 : Byte
deriving DecidableEq, Repr, Inhabited

/-- The byte of register `p`. -/
def Ports.get (r : Ports) : PortNum → Byte
  | .p5 => r.p5
  | .p6 => r.p6
  | .p7 => r.p7

/-- `r` with register `p` holding `v`. -/
def Ports.set (r : Ports) (p : PortNum) (v : Byte) : Ports :=
  match p with
  | .p5 => { r with p5 := v }
  | .p6 => { r with p6 := v }
  | .p7 => { r with p7 := v }

/-- The registers of devices the spec names and does not model (R40; P84: R60), and any other. -/
inductive DeviceReg where
  | eedata | eeadr | eecon1 | eecon2
  | other (n : Nat)
deriving DecidableEq, Repr

/-- What storage a file address selects (the target list of R40). `indf` is P84's INDF addressed through itself
(R65): it reads as 0x00 and a write to it does nothing. -/
inductive Target where
  | gpr (i : Nat)
  | pcLow | pcLatch | status | intcon | fsr | tmr0 | option
  | port (p : PortNum)
  | tris (p : PortNum)
  | device (id : DeviceReg)
  | indf
  | unmapped
deriving DecidableEq, Repr, Inhabited

/-- A parameter that the source leaves open and P84 settles: P84's rule, or an unconstrained one. -/
inductive Choice where
  | p84
  | unconstrained
deriving DecidableEq, Repr, Inhabited

/-- STACK_POLICY (R4): `fault` is the spec's own choice (D6), `circular` is P84's (R69). -/
inductive StackPolicy where
  | fault | circular
deriving DecidableEq, Repr, Inhabited

/-- Access to an Unmapped file address: `fault` is the spec's own choice (D12), `readZero` is P84's (R67). -/
inductive UnmappedPolicy where
  | fault | readZero
deriving DecidableEq, Repr, Inhabited

/-- What a reset in the middle of a run does: the model reports it as an outcome (R221, R236), or the run
goes on from the state after that reset (R252). -/
inductive ResetPolicy where
  | report | restart
deriving DecidableEq, Repr, Inhabited

/-- HALT (R4, D34): the predicate by which a claim says that a run has ended. The first three are D34's typical choices
and none; `unconstrained` is an arbitrary predicate on the state. -/
inductive HaltRule where
  | never
  | asleep
  | atAddress (a : ProgAddr)
  | unconstrained
deriving DecidableEq, Repr, Inhabited

/-- StatusLayout (R4, R43): the bit position of each flag in the status register image, and of the three other
bits (`other0` holds bit 0 of `statusOther`). -/
structure StatusLayout where
  cPos : Fin 8
  dcPos : Fin 8
  zPos : Fin 8
  pdPos : Fin 8
  toPos : Fin 8
  other0 : Fin 8
  other1 : Fin 8
  other2 : Fin 8
deriving DecidableEq, Repr, Inhabited

/-- The eight positions are eight different ones. -/
def StatusLayout.wf (l : StatusLayout) : Bool :=
  decide [l.cPos, l.dcPos, l.zPos, l.pdPos, l.toPos, l.other0, l.other1, l.other2].Nodup

/-- The parameters of R4 that the source leaves open. `progWords` and `erased` give PROG its extent: a fetch goes to
the address modulo `progWords`, and a word that is not listed reads as `erased`, or is undefined where that is
none. `pins` says whether output pins follow the latch (R66) or obey no law (R44); `portBits` are the
implemented bits of each I/O register, the others read 0 (R60). -/
structure Config where
  progWords : Nat
  erased : Option InstrWord
  stackDepth : Nat
  stackPolicy : StackPolicy
  fileMap : Choice
  unmapped : UnmappedPolicy
  statusLayout : StatusLayout
  resetVector : ProgAddr
  intVector : ProgAddr
  irq : Choice
  wdtEnabled : Bool
  psaTmr0 : Choice
  wake : Choice
  pins : Choice
  portBits : Ports
  wdtReset : ResetPolicy
  masterClear : ResetPolicy
  halt : HaltRule
deriving DecidableEq, Repr, Inhabited

/-- A parameter record that describes a machine: distinct status positions (R43), a positive stack depth (D5), and a
program extent inside the 13-bit address space (R71). -/
def Config.wf (k : Config) : Bool :=
  k.statusLayout.wf && decide (0 < k.stackDepth) && decide (0 < k.progWords) && decide (k.progWords ≤ 8192)

/-- P84's status layout (R61): C 0, DC 1, Z 2, PD 3, TO 4, RP0 5, RP1 6, IRP 7. -/
def StatusLayout.p84 : StatusLayout :=
  { cPos := 0, dcPos := 1, zPos := 2, pdPos := 3, toPos := 4, other0 := 5, other1 := 6, other2 := 7 }

/-- Profile P84 (R4's last column, R60 to R69). PRESUMED: the spec marks every line of it as general knowledge
(log 1). R221 keeps WdtReset an outcome under P84; the master clear restarts (R252). R4 gives WDT_ENABLED "either
value" here: `true` is the model's DESIGN CHOICE (log 29). -/
def Config.p84 : Config :=
  { progWords := 1024
    erased := some 0x3FFF
    stackDepth := 8
    stackPolicy := .circular
    fileMap := .p84
    unmapped := .readZero
    statusLayout := .p84
    resetVector := 0x0000
    intVector := 0x0004
    irq := .p84
    wdtEnabled := true
    psaTmr0 := .p84
    wake := .p84
    pins := .p84
    portBits := { p5 := 0x1F, p6 := 0xFF, p7 := 0xFF }
    wdtReset := .report
    masterClear := .restart
    halt := .never }

/-- The n-th 8-bit free value of a run: the spec's `draw(8)` (R9, R38, R40, R44). No law holds of it (log 8). -/
opaque Config.drawByte : Nat → Byte

/-- The n-th free value as a return address: a circular stack slot that the state does not list (log 10). -/
opaque Config.drawPc : Nat → ProgAddr

end Sys2Proof
end

