-- ==== Sys2Proof/Machine/State.lean ====
section
/-! DEFINITION. The machine's state (10_state.md R20, with what profile P84 and the environment add), its faults and
refusals (60_exceptions.md R221), the state after reset (R50, R68, R251), and the open parameters that are functions
of the state (R4). -/

namespace Sys2Proof.Machine

/-- What the environment does at one instruction boundary (R20, R83, R230). `run` is no event: the core has the
boundary. The four interrupt events are P84's sources (R226); `intEdge` says whether the edge at the pin is a
rising one. `eeifCleared` is the EEPROM's answer to software's write of 0 to EEIF (log 16). `counters` gives the
hidden counts a new value (R39: the environment alone advances them). `overdrive` names the output pins an external
device holds (R66). `other` is any event the spec does not name (R240). -/
inductive EnvEvent where
  | run
  | intEdge (rising : Bool)
  | portBChange
  | timer0Overflow
  | eepromDone
  | eeifCleared
  | wdtTimeout
  | masterClear
  | counters (wdt psc : Nat)
  | overdrive (p : PortNum) (mask : Byte)
  | other (n : Nat)
deriving DecidableEq, Repr

/-- What the outside world sees of an instruction: a write to an I/O register's latch (R41, R44) or to a register of
a device that is not modelled (R41). -/
inductive OutEvent where
  | port (p : PortNum) (v : Byte)
  | device (id : DeviceReg) (v : Byte)
deriving DecidableEq, Repr

/-- The general-purpose cells of the data space: (index, byte) pairs, indices strictly rising, no byte 0x00 listed
(`Memory.wf`). -/
abbrev Memory := List Host.Cell

/-- Program memory: (word address, word) pairs, addresses strictly rising, no word listed that an unlisted address
reads as (`ProgMem.wf`). -/
abbrev ProgMem := List (Nat × InstrWord)

/-- The machine's state. The fields down to `asleep` are R20's; `stale`, `stackPtr`, `justWoke`, `eeif`, `events` and
`cycles` come from R69, R50, R240, R226, R41 and R49, and `eeifMark` from R226 with R41 (log 16);
`prog`, `cfg`, `env` and `overdrive` are what the spec's step relation takes as arguments (log 2); `draws` is the
model's own count of free values taken (log 8). -/
structure State where
  w : Byte
  pc : ProgAddr
  stack : List ProgAddr
  c : Bool
  dc : Bool
  z : Bool
  toBit : Bool
  pdBit : Bool
  gie : Bool
  intconLo : BitVec 7
  pclath : BitVec 5
  statusOther : BitVec 3
  option : Byte
  tris : Ports
  latch : Ports
  tmr0 : Byte
  fsr : Byte
  gpr : Memory
  wdt : Nat
  psc : Nat
  asleep : Bool
  stale : List ProgAddr
  stackPtr : Nat
  justWoke : Bool
  eeif : Bool
  eeifMark : Nat
  events : List OutEvent
  cycles : Nat
  prog : ProgMem
  cfg : Config
  env : List EnvEvent
  overdrive : Ports
  draws : Nat
deriving DecidableEq, Repr, Inhabited

/-- The model-level outcomes of R221 that stop a run. None is an event of the hardware (R220); each is safe: the
model stops where a device goes on. -/
inductive Fault where
  /-- Raised by a fetch at an address where PROG is undefined (R72, D3). Safe. -/
  | fetchUnmapped (a : ProgAddr)
  /-- Raised by an instruction whose file address selects no register, by `UnmappedPolicy.fault` (R40, R41, D12); it
  records f and the pc. Safe. -/
  | fileUnmapped (f : FileAddr) (pc : ProgAddr)
  /-- Raised by CALL and interrupt entry on a full stack, by `StackPolicy.fault` (R30, D6). Safe. -/
  | stackOverflow (pc : ProgAddr)
  /-- Raised by RETURN, RETLW and RETFIE on an empty stack, by `StackPolicy.fault` (R31, D6). Safe. -/
  | stackUnderflow (pc : ProgAddr)
  /-- Raised by the environment's WDT time-out while awake, by `ResetPolicy.report` (R236, D18). Safe. -/
  | wdtReset (pc : ProgAddr)
  /-- Raised by the environment's master clear, by `ResetPolicy.report`: R251 gives the state after a reset only as
  a launch state. Safe. -/
  | externalReset (pc : ProgAddr)
deriving DecidableEq, Repr

/-- The terms the spec gives no meaning. Each is safe: the model stops where a device goes on. -/
inductive Refusal where
  /-- Raised by an arm of `exec` whose instruction has no meaning yet. Safe. -/
  | notModelled (mnemonic : String)
  /-- Raised by the decode of a fetched word that matches no row of R104; it records the word and the pc (R106,
  D7). Safe. -/
  | reservedEncoding (w : InstrWord) (pc : ProgAddr)
  /-- Raised by DECFSZ and INCFSZ with d = 1 on the PcLow target (R28, R141, R143, U6). Safe. -/
  | unspecifiedPcWrite (pc : ProgAddr)
  /-- Raised by a TRIS term whose operand is not 5, 6 or 7; no word decodes to one (R104, R111, R212). Safe. -/
  | trisNumber (f : BitVec 3)
deriving DecidableEq, Repr

/-- The state as the spec's open functions of the state see it (R40, R224): without the program, the environment's
inputs and the model's bookkeeping, which R20 says are not state. -/
def State.arch (s : State) : State :=
  { s with
    prog := []
    env := []
    overdrive := { p5 := 0x00, p6 := 0x00, p7 := 0x00 }
    eeifMark := 0
    events := []
    cycles := 0
    draws := 0 }

/-- The state right after a power-on reset, profile P84 (R68, R251, R50). The values that R50 leaves unknown are zero:
DESIGN CHOICE, unsafe (log 3, log 5); P84's values are PRESUMED (log 4). So are DESIGN CHOICES a silent environment
(log 11), no output pin held by an external device at launch (log 9) and the WDT enabled (log 29). -/
def State.reset : State :=
  { w := 0x00
    pc := Config.p84.resetVector
    stack := []
    c := false
    dc := false
    z := false
    toBit := true
    pdBit := true
    gie := false
    intconLo := 0
    pclath := 0
    statusOther := 0
    option := 0xFF
    tris := { p5 := 0x1F, p6 := 0xFF, p7 := 0x00 }
    latch := { p5 := 0x00, p6 := 0x00, p7 := 0x00 }
    tmr0 := 0x00
    fsr := 0x00
    gpr := []
    wdt := 0
    psc := 0
    asleep := false
    stale := [0, 0, 0, 0, 0, 0, 0, 0]
    stackPtr := 0
    justWoke := false
    eeif := false
    eeifMark := 0
    events := []
    cycles := 0
    prog := []
    cfg := Config.p84
    env := []
    overdrive := { p5 := 0x00, p6 := 0x00, p7 := 0x00 }
    draws := 0 }

end Sys2Proof.Machine

namespace Sys2Proof

/-- FileMap where it is left open (R4, R40): an arbitrary function of the state and the file address. -/
opaque Config.openFileMap : Machine.State → FileAddr → Target

/-- psa_tmr0 where it is left open (R4, R36): an arbitrary predicate on the state. -/
opaque Config.openPsaTmr0 : Machine.State → Bool

/-- irq where it is left open (R4, R224): an arbitrary predicate on the state and the environment's draw. -/
opaque Config.openIrq : Machine.State → Nat → Bool

/-- HALT where it is left open (R4, D34): an arbitrary predicate on the state. -/
opaque Config.openHalt : Machine.State → Bool

/-- WakeEvents where it is left open (R4, R240): an arbitrary set of environment events. -/
opaque Config.openWake : Machine.EnvEvent → Bool

end Sys2Proof
end

