-- ==== Sys2Proof/Machine/Memory.lean ====
section
/-! DEFINITION. The two stores that are lists of cells: the general-purpose file registers and program memory
(20_memory.md R70). Both are kept in one canonical form, so that equal contents are equal data. -/

namespace Sys2Proof.Machine

/-- The entry at address `a`, if one is listed. -/
def cellAt {n : Nat} : List (Nat × BitVec n) → Nat → Option (BitVec n)
  | [], _ => none
  | (k, x) :: rest, a => if k = a then some x else cellAt rest a

/-- The list without any entry at address `a`. -/
def dropCell {n : Nat} : List (Nat × BitVec n) → Nat → List (Nat × BitVec n)
  | [], _ => []
  | (k, x) :: rest, a => if k = a then dropCell rest a else (k, x) :: dropCell rest a

/-- The list with `v` at address `a`, at its place in the order. -/
def insertCell {n : Nat} : List (Nat × BitVec n) → Nat → BitVec n → List (Nat × BitVec n)
  | [], a, v => [(a, v)]
  | (k, x) :: rest, a, v =>
    if a < k then (a, v) :: (k, x) :: rest
    else if k = a then (a, v) :: rest
    else (k, x) :: insertCell rest a v

/-- Write `v` at `a`, where an unlisted address reads as `fill` (or as nothing): that value is never listed. -/
def writeCell {n : Nat} (fill : Option (BitVec n)) (m : List (Nat × BitVec n)) (a : Nat) (v : BitVec n) :
    List (Nat × BitVec n) :=
  if fill = some v then dropCell m a else insertCell m a v

/-- Every listed address is above `lo`, strictly rising, and no listed value is `fill`. -/
def cellsAbove {n : Nat} (fill : Option (BitVec n)) : Option Nat → List (Nat × BitVec n) → Bool
  | _, [] => true
  | lo, (k, x) :: rest =>
    (match lo with
      | none => true
      | some b => decide (b < k)) && decide (fill ≠ some x) && cellsAbove fill (some k) rest

/-- The canonical form. -/
def cellsWf {n : Nat} (fill : Option (BitVec n)) (m : List (Nat × BitVec n)) : Bool :=
  cellsAbove fill none m

/-- What a general-purpose cell that nothing has written reads as: 0x00, DESIGN CHOICE, unsafe (log 5). -/
def gprFill : Byte := 0x00

/-- The byte of general-purpose cell `i` (R40). -/
def Memory.read (m : Memory) (i : Nat) : Byte := (cellAt m i).getD gprFill

/-- General-purpose cell `i` written with `v` (R41). -/
def Memory.write (m : Memory) (i : Nat) (v : Byte) : Memory := writeCell (some gprFill) m i v

/-- The canonical form of the general-purpose cells. -/
def Memory.wf (m : Memory) : Bool := cellsWf (some gprFill) m

/-- PROG(a), where it is defined (R72): the address is taken modulo `progWords`, and a word that is not listed is
`erased`, or undefined where that is none (P84: 1024 words, erased 0x3FFF, R69). -/
def progRead (k : Config) (m : ProgMem) (a : ProgAddr) : Option InstrWord :=
  match cellAt m (a.toNat % k.progWords) with
  | some w => some w
  | none => k.erased

/-- Program memory with `w` at address `a`, as the outside world loads it; no instruction does (R86). -/
def progWrite (k : Config) (m : ProgMem) (a : ProgAddr) (w : InstrWord) : ProgMem :=
  writeCell k.erased m (a.toNat % k.progWords) w

/-- The canonical form of program memory. -/
def ProgMem.wf (k : Config) (m : ProgMem) : Bool := cellsWf k.erased m

end Sys2Proof.Machine
end

