-- ==== Sys2Proof/Machine/Flags.lean ====
section
/-! DEFINITION. The arithmetic of 40_byte_oriented.md section 1: results with the flags they affect. -/

namespace Sys2Proof.Machine

/-- A result and the flags its instruction lists under Status Affected; `none` is a flag it does not list (R32). -/
structure AluOut where
  r : Byte
  c : Option Bool := none
  dc : Option Bool := none
  z : Option Bool := none
deriving DecidableEq, Repr

/-- zf(r): 1 exactly when the 8-bit value is 0x00 (R133). -/
def zf (r : Byte) : Bool := r == 0x00#8

/-- add8(a, b): the sum modulo 256, the carries out of bit 7 and bit 3, and Z (R131). -/
def add8 (a b : Byte) : AluOut :=
  let r : Byte := BitVec.ofNat 8 (a.toNat + b.toNat)
  { r := r
    c := some (decide (256 ≤ a.toNat + b.toNat))
    dc := some (decide (16 ≤ a.toNat % 16 + b.toNat % 16))
    z := some (zf r) }

/-- sub8(a, b): a - b by two's complement; C and DC are the complements of the borrows (R132). -/
def sub8 (a b : Byte) : AluOut :=
  let t := a.toNat + (255 - b.toNat) + 1
  let r : Byte := BitVec.ofNat 8 t
  { r := r
    c := some (decide (256 ≤ t))
    dc := some (decide (16 ≤ a.toNat % 16 + (15 - b.toNat % 16) + 1))
    z := some (zf r) }

/-- A result that affects Z only (R133). -/
def withZ (r : Byte) : AluOut := { r := r, z := some (zf r) }

/-- A result that affects no flag. -/
def noFlags (r : Byte) : AluOut := { r := r }

/-- The 9-bit quantity C ++ a rotated left by one: C gets the bit rotated out (R148). -/
def rotateLeft (a : Byte) (c : Bool) : AluOut :=
  { r := a.extractLsb' 0 7 ++ BitVec.ofBool c, c := some (a.getLsbD 7) }

/-- The 9-bit quantity a ++ C rotated right by one: C gets the bit rotated out (R149). -/
def rotateRight (a : Byte) (c : Bool) : AluOut :=
  { r := BitVec.ofBool c ++ a.extractLsb' 1 7, c := some (a.getLsbD 0) }

/-- The two nibbles exchanged (R151). -/
def swapNibbles (a : Byte) : Byte := a.extractLsb' 0 4 ++ a.extractLsb' 4 4

/-- `a` with bit `b` cleared (R171). -/
def clearBit (a : Byte) (b : BitVec 3) : Byte := a &&& ~~~(1#8 <<< b.toNat)

/-- `a` with bit `b` set (R172). -/
def setBit (a : Byte) (b : BitVec 3) : Byte := a ||| (1#8 <<< b.toNat)

end Sys2Proof.Machine
end

