-- ==== Sys2Proof/Machine/Operands.lean ====
section
/-! DEFINITION. File register access (10_state.md section 8): FileMap, the read and the write of each target. -/

namespace Sys2Proof.Machine

/-- A byte with bit `p` holding `b` and the other bits 0. -/
def bitAt (p : Fin 8) (b : Bool) : Byte := if b then 1#8 <<< p.val else 0#8

/-- The status register image (R43): each flag and the three other bits at their StatusLayout positions. -/
def statusImage (s : State) : Byte :=
  let l := s.cfg.statusLayout
  bitAt l.cPos s.c ||| bitAt l.dcPos s.dc ||| bitAt l.zPos s.z ||| bitAt l.pdPos s.pdBit ||| bitAt l.toPos s.toBit |||
    bitAt l.other0 (s.statusOther.getLsbD 0) ||| bitAt l.other1 (s.statusOther.getLsbD 1) |||
    bitAt l.other2 (s.statusOther.getLsbD 2)

/-- A data write to the status register image (R43): C, DC, Z and the three other bits take the data, TO and PD stay. -/
def writeStatus (v : Byte) (s : State) : State :=
  let l := s.cfg.statusLayout
  { s with
    c := v.getLsbD l.cPos.val
    dc := v.getLsbD l.dcPos.val
    z := v.getLsbD l.zPos.val
    statusOther :=
      BitVec.ofBool (v.getLsbD l.other2.val) ++ BitVec.ofBool (v.getLsbD l.other1.val) ++
        BitVec.ofBool (v.getLsbD l.other0.val) }

/-- INTCON as a byte, GIE ++ intcon_lo (R34). -/
def intconImage (s : State) : Byte := BitVec.ofBool s.gie ++ s.intconLo

/-- The storage at P84's 8-bit data address `a`, bank bit first (R60); INDF stands as `indf`. -/
def p84Cell (a : Byte) : Target :=
  let bank1 := a.getLsbD 7
  let n := (a.extractLsb' 0 7).toNat
  if n = 0x00 then .indf
  else if n = 0x01 then (if bank1 then .option else .tmr0)
  else if n = 0x02 then .pcLow
  else if n = 0x03 then .status
  else if n = 0x04 then .fsr
  else if n = 0x05 then (if bank1 then .tris .p5 else .port .p5)
  else if n = 0x06 then (if bank1 then .tris .p6 else .port .p6)
  else if n = 0x07 then .unmapped
  else if n = 0x08 then (if bank1 then .device .eecon1 else .device .eedata)
  else if n = 0x09 then (if bank1 then .device .eecon2 else .device .eeadr)
  else if n = 0x0A then .pcLatch
  else if n = 0x0B then .intcon
  else if n < 0x50 then .gpr (n - 0x0C)
  else .unmapped

/-- P84's FileMap (R60, R65): the bank is RP0, and INDF is the cell that FSR addresses; INDF addressed through itself
stays `indf`. -/
def p84FileMap (s : State) (f : FileAddr) : Target :=
  match p84Cell (BitVec.ofBool (s.statusOther.getLsbD 0) ++ f) with
  | .indf => p84Cell s.fsr
  | t => t

/-- FileMap(s, f) (R40): P84's map, or an arbitrary function of the state. -/
def fileMap (s : State) (f : FileAddr) : Target :=
  match s.cfg.fileMap with
  | .p84 => p84FileMap s f
  | .unconstrained => Config.openFileMap s.arch f

/-- The target of one instruction's file operand (R40), or the outcome for an address with no register (D12; under
R67 such an address is a target that reads 0x00 and ignores writes). -/
def fileTarget (s : State) (f : FileAddr) : Except Fault Target :=
  if fileMap s f = .unmapped ∧ s.cfg.unmapped = .fault then .error (.fileUnmapped f s.pc) else .ok (fileMap s f)

/-- psa_tmr0(s): the prescaler is assigned to Timer0 (R36; P84: OPTION<3> = 0, R63). -/
def psaTmr0 (s : State) : Bool :=
  match s.cfg.psaTmr0 with
  | .p84 => !s.option.getLsbD 3
  | .unconstrained => Config.openPsaTmr0 s.arch

/-- One free value has been taken (log 8). -/
def takeDraw (s : State) : State := { s with draws := s.draws + 1 }

/-- The bits of `a` where `m` has a 1 and those of `b` where it has a 0; `a` is not looked at where `m` has none. -/
def mergeBits (m a b : Byte) : Byte := if m = 0 then b else (m &&& a) ||| (~~~m &&& b)

/-- pins(p), given a draw (R44): no law, or P84's (R66), by which the pin of an output that no external device
overdrives follows its latch bit; an unimplemented bit reads 0 (R60). -/
def pinLevels (s : State) (p : PortNum) (draw : Byte) : Byte :=
  let bits := s.cfg.portBits.get p
  match s.cfg.pins with
  | .p84 => mergeBits ((s.tris.get p ||| s.overdrive.get p) &&& bits) draw (s.latch.get p) &&& bits
  | .unconstrained => draw &&& bits

/-- The value a target reads as, given a draw for the targets that read as one (R40). -/
def targetValue (t : Target) (draw : Byte) (s : State) : Byte :=
  match t with
  | .gpr i => s.gpr.read i
  | .pcLow => (s.pc + 1).extractLsb' 0 8
  | .pcLatch => s.pclath.setWidth 8
  | .status => statusImage s
  | .intcon => intconImage s
  | .fsr => s.fsr
  | .tmr0 => draw
  | .option => s.option
  | .port p => pinLevels s p draw
  | .tris p => s.tris.get p &&& s.cfg.portBits.get p
  | .device _ => draw
  | .indf => 0x00
  | .unmapped => 0x00

/-- The targets whose read takes a free value (R40, R79). -/
def drawsOnRead : Target → Bool
  | .tmr0 | .port _ | .device _ => true
  | .gpr _ | .pcLow | .pcLatch | .status | .intcon | .fsr | .option | .tris _ | .indf | .unmapped => false

/-- F[f] once the target is known: the value (R40). -/
def readValue (t : Target) (s : State) : Byte := targetValue t (Config.drawByte s.draws) s

/-- The state after the read of a target: a draw taken, where the target reads as one; nothing else (R79). -/
def afterRead (t : Target) (s : State) : State := if drawsOnRead t then takeDraw s else s

/-- F[f] <- v once the target is known (R41). A write to a device register is recorded and changes nothing else (R41,
U11). -/
def writeTarget (t : Target) (v : Byte) (s : State) : State :=
  match t with
  | .gpr i => { s with gpr := s.gpr.write i v }
  | .pcLow => { s with pc := s.pclath ++ v }
  | .pcLatch => { s with pclath := v.extractLsb' 0 5 }
  | .status => writeStatus v s
  | .intcon => { s with gie := v.getLsbD 7, intconLo := v.extractLsb' 0 7 }
  | .fsr => { s with fsr := v }
  | .tmr0 => { s with tmr0 := v, psc := if psaTmr0 s then 0 else s.psc }
  | .option => { s with option := v }
  | .port p => { s with latch := s.latch.set p v, events := .port p v :: s.events }
  | .tris p => { s with tris := s.tris.set p v }
  | .device id => { s with events := .device id v :: s.events }
  | .indf => s
  | .unmapped => s

end Sys2Proof.Machine
end

