-- ==== Sys2Proof/Machine/Ops.lean ====
section
/-! DEFINITION. The operations the meanings share: the pc and cycle count, destination and flags, the stack, the
instruction templates of R130, R170 and R180, and interrupt entry with the return from it. -/

namespace Sys2Proof.Machine

/-- What a step or an instruction answers. -/
abbrev Result := Host.Outcome State Fault Refusal

/-- W <- v (R21). -/
def setW (v : Byte) (s : State) : State := { s with w := v }

/-- `n` cycles counted (R49, R261). -/
def tick (n : Nat) (s : State) : State := { s with cycles := s.cycles + n }

/-- pc <- a. -/
def setPc (a : ProgAddr) (s : State) : State := { s with pc := a }

/-- next(): pc + 1 modulo 8192, one cycle (R25, R261). -/
def nextInstr (s : State) : State := tick 1 (setPc (s.pc + 1) s)

/-- skip(): pc + 2 modulo 8192, two cycles; the skipped word is not decoded (R27). -/
def skipInstr (s : State) : State := tick 2 (setPc (s.pc + 2) s)

/-- A transfer of control to `a`, two cycles (R180 b). -/
def jumpTo (a : ProgAddr) (s : State) : State := tick 2 (setPc a s)

/-- The flags an instruction lists take its result's values, the others stay (R32, R41: after the data write). -/
def setFlags (o : AluOut) (s : State) : State :=
  { s with c := o.c.getD s.c, dc := o.dc.getD s.dc, z := o.z.getD s.z }

/-- dest(f, d) <- v (R9), with f's target known. -/
def writeDest (t : Target) (d : Dest) (v : Byte) (s : State) : State :=
  match d with
  | .w => setW v s
  | .f => writeTarget t v s

/-- The destination is the low byte of the program counter (R28). -/
def loadsPc (t : Target) (d : Dest) : Bool := decide (d = .f) && decide (t = .pcLow)

/-- finish() (R130 step 6): a write to PcLow has loaded the pc and takes two cycles (R28, Note 3 in R261); otherwise
next(). -/
def finish (t : Target) (d : Dest) (s : State) : State := if loadsPc t d then tick 2 s else nextInstr s

/-- The template of R130, and of R170 for BCF and BSF: resolve, read once (R42), compute, write the destination, then
the flags, then the pc. -/
def byteOp (f : FileAddr) (d : Dest) (alu : Byte → AluOut) (s : State) : Result :=
  match fileTarget s f with
  | .error e => .fault e
  | .ok t =>
    let o := alu (readValue t s)
    .next (finish t d (setFlags o (writeDest t d o.r (afterRead t s))))

/-- The template of DECFSZ and INCFSZ (R141, R143): the result goes to the destination, no flag changes, the next
instruction is skipped when the result is 0; PcLow as destination has no meaning (R28). -/
def skipOp (f : FileAddr) (d : Dest) (g : Byte → Byte) (s : State) : Result :=
  match fileTarget s f with
  | .error e => .fault e
  | .ok t =>
    if loadsPc t d then .refused (.unspecifiedPcWrite s.pc)
    else
      let r := g (readValue t s)
      let s' := writeDest t d r (afterRead t s)
      .next (if r = 0 then skipInstr s' else nextInstr s')

/-- The template of BTFSC and BTFSS (R170): test one bit, write nothing, skip when it equals `skipOn`. -/
def testOp (f : FileAddr) (b : BitVec 3) (skipOn : Bool) (s : State) : Result :=
  match fileTarget s f with
  | .error e => .fault e
  | .ok t =>
    let s' := afterRead t s
    .next (if (readValue t s).getLsbD b.toNat = skipOn then skipInstr s' else nextInstr s')

/-- The template of a literal instruction (R180 a): the result goes to W, then the flags, then next(). -/
def literalOp (o : AluOut) (s : State) : Result := .next (nextInstr (setFlags o (setW o.r s)))

/-- The stack's pointer one slot on, and one slot back, around its STACK_DEPTH slots (R69, R50): the slot that the next
push writes, counted from the first. -/
def ptrUp (s : State) : Nat := (s.stackPtr + 1) % s.cfg.stackDepth

@[inherit_doc ptrUp] def ptrDown (s : State) : Nat := (s.stackPtr + (s.cfg.stackDepth - 1)) % s.cfg.stackDepth

/-- push(v) (R30). By P84's circular policy a push on a full stack overwrites the oldest entry, and a push on a stack
with room overwrites the slot that `stale` lists last (R69, log 10). -/
def push (v : ProgAddr) (s : State) : Except Fault State :=
  match s.cfg.stackPolicy with
  | .fault =>
    if s.stack.length < s.cfg.stackDepth then .ok { s with stack := v :: s.stack, stackPtr := ptrUp s }
    else .error (.stackOverflow s.pc)
  | .circular =>
    if s.stack.length < s.cfg.stackDepth then
      .ok { s with stack := v :: s.stack, stale := s.stale.dropLast, stackPtr := ptrUp s }
    else .ok { s with stack := v :: s.stack.dropLast, stackPtr := ptrUp s }

/-- pop() (R31): the popped address and the state after. By P84's circular policy the popped slot keeps its value, and
a pop from an empty stack returns the first of `stale` (R69); a slot the state does not list is a free value
(log 10). -/
def pop (s : State) : Except Fault (ProgAddr × State) :=
  match s.cfg.stackPolicy, s.stack, s.stale with
  | .fault, v :: rest, _ => .ok (v, { s with stack := rest, stackPtr := ptrDown s })
  | .fault, [], _ => .error (.stackUnderflow s.pc)
  | .circular, v :: rest, stale => .ok (v, { s with stack := rest, stale := stale ++ [v], stackPtr := ptrDown s })
  | .circular, [], v :: stale => .ok (v, { s with stale := stale ++ [v], stackPtr := ptrDown s })
  | .circular, [], [] => .ok (Config.drawPc s.draws, takeDraw { s with stackPtr := ptrDown s })

/-- The 13-bit target of CALL and GOTO: PCLATH<4:3> ++ k (R71, R183, R185). -/
def pageTarget (s : State) (k : BitVec 11) : ProgAddr := s.pclath.extractLsb' 3 2 ++ k

/-- pc <- pop(), two cycles: what RETURN, RETLW and RETFIE share (R31, R190). -/
def popPc (s : State) : Result :=
  match pop s with
  | .error e => .fault e
  | .ok (a, s') => .next (jumpTo a s')

/-- Interrupt entry (R228): the pc is pushed, GIE cleared, the pc loaded with INT_VECTOR; nothing else changes and no
cycle is counted. -/
def enterInterrupt (s : State) : Result :=
  match push s.pc s with
  | .error e => .fault e
  | .ok s' => .next (setPc s.cfg.intVector { s' with gie := false })

/-- The return from an interrupt (R188, R231): the pc is popped and GIE set; nothing else is restored. -/
def returnFromInterrupt (s : State) : Result :=
  match pop s with
  | .error e => .fault e
  | .ok (a, s') => .next (jumpTo a { s' with gie := true })

/-- What CLRWDT and SLEEP do to the Watchdog Timer: its count is cleared, and the prescaler where the WDT owns it
(R184, R191, D22). -/
def clearWdt (s : State) : State := { s with wdt := 0, psc := if psaTmr0 s then s.psc else 0 }

/-- The two status bits TO and PD (R33). -/
def setPowerBits (to' pd : Bool) (s : State) : State := { s with toBit := to', pdBit := pd }

end Sys2Proof.Machine
end

