-- ==== Sys2Proof/Machine/BitOriented.lean ====
section
/-! DEFINITION. The bit-oriented file register operations (41_bit_oriented.md R171 to R174). -/

namespace Sys2Proof.Machine

/-- BCF (R171): 0 → (f<b>); the whole register is written back. -/
def execBcf (f : FileAddr) (b : BitVec 3) (s : State) : Result := byteOp f .f (fun a => noFlags (clearBit a b)) s

/-- BSF (R172): 1 → (f<b>); the whole register is written back. -/
def execBsf (f : FileAddr) (b : BitVec 3) (s : State) : Result := byteOp f .f (fun a => noFlags (setBit a b)) s

/-- BTFSC (R173): skip if (f<b>) = 0. -/
def execBtfsc (f : FileAddr) (b : BitVec 3) (s : State) : Result := testOp f b false s

/-- BTFSS (R174): skip if (f<b>) = 1. -/
def execBtfss (f : FileAddr) (b : BitVec 3) (s : State) : Result := testOp f b true s

end Sys2Proof.Machine
end

