-- ==== Sys2Proof/Machine/ByteOriented.lean ====
section
/-! DEFINITION. The byte-oriented file register operations (40_byte_oriented.md R135 to R152). -/

namespace Sys2Proof.Machine

/-- ADDWF (R135): (W) + (f) → (destination); C, DC, Z. -/
def execAddwf (f : FileAddr) (d : Dest) (s : State) : Result := byteOp f d (fun a => add8 s.w a) s

/-- ANDWF (R136): (W) .AND. (f) → (destination); Z. -/
def execAndwf (f : FileAddr) (d : Dest) (s : State) : Result := byteOp f d (fun a => withZ (s.w &&& a)) s

/-- CLRF (R137): 00h → (f), 1 → Z; the register is read first and the value discarded (R42). -/
def execClrf (f : FileAddr) (s : State) : Result := byteOp f .f (fun _ => { r := 0x00, z := some true }) s

/-- CLRW (R138): 00h → (W), 1 → Z; no file register is read. -/
def execClrw (s : State) : Result := literalOp { r := 0x00, z := some true } s

/-- COMF (R139): the complement of (f) → (destination); Z. -/
def execComf (f : FileAddr) (d : Dest) (s : State) : Result := byteOp f d (fun a => withZ (~~~a)) s

/-- DECF (R140): (f) - 1 → (destination); Z only. -/
def execDecf (f : FileAddr) (d : Dest) (s : State) : Result := byteOp f d (fun a => withZ (a - 1)) s

/-- DECFSZ (R141): (f) - 1 → (destination); skip if result = 0; no flag. -/
def execDecfsz (f : FileAddr) (d : Dest) (s : State) : Result := skipOp f d (fun a => a - 1) s

/-- INCF (R142): (f) + 1 → (destination); Z only. -/
def execIncf (f : FileAddr) (d : Dest) (s : State) : Result := byteOp f d (fun a => withZ (a + 1)) s

/-- INCFSZ (R143): (f) + 1 → (destination); skip if result = 0; no flag. -/
def execIncfsz (f : FileAddr) (d : Dest) (s : State) : Result := skipOp f d (fun a => a + 1) s

/-- IORWF (R144): (W) .OR. (f) → (destination); Z. -/
def execIorwf (f : FileAddr) (d : Dest) (s : State) : Result := byteOp f d (fun a => withZ (s.w ||| a)) s

/-- MOVF (R145): (f) → (destination); Z. -/
def execMovf (f : FileAddr) (d : Dest) (s : State) : Result := byteOp f d (fun a => withZ a) s

/-- MOVWF (R146): (W) → (f); no flag; the register is read first and the value discarded (R42). -/
def execMovwf (f : FileAddr) (s : State) : Result := byteOp f .f (fun _ => noFlags s.w) s

/-- NOP (R147). -/
def execNop (s : State) : Result := .next (nextInstr s)

/-- RLF (R148): (f) rotated left through C; C only. -/
def execRlf (f : FileAddr) (d : Dest) (s : State) : Result := byteOp f d (fun a => rotateLeft a s.c) s

/-- RRF (R149): (f) rotated right through C; C only. -/
def execRrf (f : FileAddr) (d : Dest) (s : State) : Result := byteOp f d (fun a => rotateRight a s.c) s

/-- SUBWF (R150): (f) - (W) → (destination); C, DC, Z. -/
def execSubwf (f : FileAddr) (d : Dest) (s : State) : Result := byteOp f d (fun a => sub8 a s.w) s

/-- SWAPF (R151): the nibbles of (f) exchanged → (destination); no flag. -/
def execSwapf (f : FileAddr) (d : Dest) (s : State) : Result := byteOp f d (fun a => noFlags (swapNibbles a)) s

/-- XORWF (R152): (W) .XOR. (f) → (destination); Z. -/
def execXorwf (f : FileAddr) (d : Dest) (s : State) : Result := byteOp f d (fun a => withZ (s.w ^^^ a)) s

end Sys2Proof.Machine
end

