-- ==== Sys2Proof/Machine/Compat.lean ====
section
/-! DEFINITION. The compatibility instructions OPTION and TRIS (43_compat_option_tris.md R211, R212). -/

namespace Sys2Proof.Machine

/-- OPTION (R211): (W) → OPTION, not through FileMap. -/
def execOption (s : State) : Result := .next (nextInstr { s with option := s.w })

/-- The TRIS register of an operand, for the operands 5, 6 and 7 (R104, R212). -/
def trisPort (f : BitVec 3) : Option PortNum :=
  if f = 5 then some .p5 else if f = 6 then some .p6 else if f = 7 then some .p7 else none

/-- TRIS (R212): (W) → TRIS register f, for f = 5, 6, 7, whichever the part has (D23). -/
def execTris (f : BitVec 3) (s : State) : Result :=
  match trisPort f with
  | some p => .next (nextInstr { s with tris := s.tris.set p s.w })
  | none => .refused (.trisNumber f)

end Sys2Proof.Machine
end

