-- ==== Sys2Proof/Machine/LiteralControl.lean ====
section
/-! DEFINITION. The literal and control operations (42_literal_control.md R181 to R193). -/

namespace Sys2Proof.Machine

/-- ADDLW (R181): (W) + k → (W); C, DC, Z. -/
def execAddlw (k : Byte) (s : State) : Result := literalOp (add8 s.w k) s

/-- ANDLW (R182): (W) .AND. (k) → (W); Z. -/
def execAndlw (k : Byte) (s : State) : Result := literalOp (withZ (s.w &&& k)) s

/-- CALL (R183): PC + 1 → TOS, PCLATH<4:3> ++ k → PC. -/
def execCall (k : BitVec 11) (s : State) : Result :=
  match push (s.pc + 1) s with
  | .error e => .fault e
  | .ok s' => .next (jumpTo (pageTarget s k) s')

/-- CLRWDT (R184): WDT and its prescaler cleared, 1 → TO, 1 → PD. -/
def execClrwdt (s : State) : Result := .next (nextInstr (setPowerBits true true (clearWdt s)))

/-- GOTO (R185): PCLATH<4:3> ++ k → PC. -/
def execGoto (k : BitVec 11) (s : State) : Result := .next (jumpTo (pageTarget s k) s)

/-- IORLW (R186): (W) .OR. k → (W); Z. -/
def execIorlw (k : Byte) (s : State) : Result := literalOp (withZ (s.w ||| k)) s

/-- MOVLW (R187): k → (W); no flag. -/
def execMovlw (k : Byte) (s : State) : Result := literalOp (noFlags k) s

/-- RETFIE (R188): TOS → PC, 1 → GIE. -/
def execRetfie (s : State) : Result := returnFromInterrupt s

/-- RETLW (R189): k → (W), TOS → PC; an underflow leaves W as it was, there being no next state. -/
def execRetlw (k : Byte) (s : State) : Result := popPc (setW k s)

/-- RETURN (R190): TOS → PC. -/
def execReturn (s : State) : Result := popPc s

/-- SLEEP (R191): WDT and its prescaler cleared, 1 → TO, 0 → PD, next(), then SLEEP mode. -/
def execSleep (s : State) : Result :=
  .next { nextInstr (setPowerBits true false (clearWdt s)) with asleep := true }

/-- SUBLW (R192): k - (W) → (W); C, DC, Z. -/
def execSublw (k : Byte) (s : State) : Result := literalOp (sub8 k s.w) s

/-- XORLW (R193): (W) .XOR. k → (W); Z. -/
def execXorlw (k : Byte) (s : State) : Result := literalOp (withZ (s.w ^^^ k)) s

end Sys2Proof.Machine
end

