-- ==== Sys2Proof/Machine/Env.lean ====
section
/-! DEFINITION. The environment's part of a step: interrupt requests (60_exceptions.md R223 to R230), its events and
wake-up (R236, R240), and the resets it makes (70_reset_and_hazards.md R252). -/

namespace Sys2Proof.Machine

/-- P84's irq (R226, R62): an interrupt flag that is set and individually enabled. INTCON<6:0> is EEIE, T0IE, INTE,
RBIE, T0IF, INTF, RBIF; EEIF is in EECON1. -/
def p84Irq (s : State) : Bool :=
  let i := s.intconLo
  (i.getLsbD 5 && i.getLsbD 2) || (i.getLsbD 4 && i.getLsbD 1) || (i.getLsbD 3 && i.getLsbD 0) ||
    (i.getLsbD 6 && s.eeif)

/-- irq(s, env) (R224). -/
def irq (s : State) : Bool :=
  match s.cfg.irq with
  | .p84 => p84Irq s
  | .unconstrained => Config.openIrq s.arch s.draws

/-- The state after irq has been looked at: an unconstrained irq has taken a draw (log 8, log 17). -/
def afterIrq (s : State) : State :=
  match s.cfg.irq with
  | .p84 => s
  | .unconstrained => takeDraw s

/-- Whether this boundary looks at irq at all: GIE is 1 (R223), and it is not the first boundary after a wake-up (R230,
R240, conflict C16). -/
def samplesIrq (s : State) : Bool := s.gie && !s.justWoke

/-- INTCON<6:0> with the flag of bit `b` set. -/
def setIntconFlag (b : Nat) (s : State) : State := { s with intconLo := s.intconLo ||| (1#7 <<< b) }

/-- The edge at the INT pin is the one that OPTION<6> chooses (R226, R63): rising where the bit is 1, PRESUMED (log 31). -/
def edgeSelected (rising : Bool) (s : State) : Bool := rising == s.option.getLsbD 6

/-- A recorded write of 0 to EEIF, bit 4 of EECON1 (R41, R226). -/
def clearsEeif : OutEvent → Bool
  | .device id v => decide (id = .eecon1) && !v.getLsbD 4
  | .port _ _ => false

/-- Software has written 0 to EEIF since it was last set: such a write is among the events recorded since then. -/
def eeifClearDue (s : State) : Bool := (s.events.take (s.events.length - s.eeifMark)).any clearsEeif

/-- The flag an event sets, whatever the enable bits and GIE hold (R62, R226). Timer0 does not count while the
oscillator is stopped (R240), so it does not overflow asleep. The EEPROM clears EEIF once software has written 0 to
it, since only software clears a flag bit (R226) and that write itself has no modelled effect (R41, U11, log 16).
Where irq is left open the event sets nothing: INTCON<6:0> has no meaning there (R34). -/
def setRequest (e : EnvEvent) (s : State) : State :=
  match s.cfg.irq, e with
  | .p84, .timer0Overflow => if s.asleep then s else setIntconFlag 2 s
  | .p84, .intEdge rising => if edgeSelected rising s then setIntconFlag 1 s else s
  | .p84, .portBChange => setIntconFlag 0 s
  | .p84, .eepromDone => { s with eeif := true, eeifMark := s.events.length }
  | .p84, .eeifCleared => if eeifClearDue s then { s with eeif := false } else s
  | _, _ => s

/-- WakeEvents (R240). P84: a request from the INT pin, the PORTB change or the EEPROM whose enable bit is set, whatever
GIE holds; Timer0 cannot wake the core. The WDT time-out and the resets have rules of their own. Only an event that
arrives asleep wakes: a request already pending when SLEEP executes does not (DESIGN CHOICE, unsafe, log 30). -/
def wakes (e : EnvEvent) (s : State) : Bool :=
  match s.cfg.wake with
  | .p84 =>
    match e with
    | .intEdge rising => edgeSelected rising s && s.intconLo.getLsbD 4
    | .portBChange => s.intconLo.getLsbD 3
    | .eepromDone => s.intconLo.getLsbD 6
    | .run | .timer0Overflow | .eeifCleared | .wdtTimeout | .masterClear | .counters _ _ | .overdrive _ _
    | .other _ => false
  | .unconstrained => Config.openWake e

/-- SLEEP mode ends without a reset: execution goes on at pc, and the next instruction runs before any interrupt
entry (R240). -/
def wake (s : State) : State := { s with asleep := false, justWoke := true }

/-- The end of SLEEP mode, where the core is asleep and the event is a wake event. -/
def wakeIf (b : Bool) (s : State) : State := if s.asleep && b then wake s else s

/-- A reset that is not a power-on reset (R251, R252, R68): the control registers take their reset values, TO and PD
the given ones; W, the flags, FSR, TMR0, the latches, the general-purpose registers and INTCON<0>, unknown at
power-on, are unchanged. The stack's slots keep their contents (R252) and none is live (R251), and its pointer stands
at the first slot (R50, whose P84 column is of the power-on reset: DEDUCED for the others, log 15), so `stale` lists
the slots from the last one down. -/
def restart (to' pd : Bool) (s : State) : State :=
  { s with
    pc := s.cfg.resetVector
    stack := []
    stale := (s.stack ++ s.stale).drop s.stackPtr ++ (s.stack ++ s.stale).take s.stackPtr
    stackPtr := 0
    toBit := to'
    pdBit := pd
    gie := false
    intconLo := s.intconLo &&& 1#7
    pclath := 0
    statusOther := 0
    option := 0xFF
    tris := { p5 := 0x1F, p6 := 0xFF, p7 := s.tris.p7 }
    wdt := 0
    psc := 0
    asleep := false
    justWoke := false }

/-- The WDT time-out (R236): asleep it clears TO and wakes the core, PD staying; awake the device resets, which the
model reports, or restarts with TO = 0 and PD = 1 (R252). With the WDT disabled there is no such event (R235). -/
def wdtTimeout (s : State) : Result :=
  if !s.cfg.wdtEnabled then .next s
  else if s.asleep then .next (wake { s with toBit := false })
  else
    match s.cfg.wdtReset with
    | .report => .fault (.wdtReset s.pc)
    | .restart => .next (restart false true s)

/-- The master clear (R252): TO and PD are unchanged in normal operation, and 1 and 0 out of SLEEP. -/
def masterClear (s : State) : Result :=
  match s.cfg.masterClear with
  | .report => .fault (.externalReset s.pc)
  | .restart => .next (if s.asleep then restart true false s else restart s.toBit s.pdBit s)

/-- One event of the environment (R20, R83): its effect, and the end of SLEEP mode where it is a wake event. -/
def applyEvent (e : EnvEvent) (s : State) : Result :=
  match e with
  | .wdtTimeout => wdtTimeout s
  | .masterClear => masterClear s
  | .counters wdt psc =>
    .next (wakeIf (wakes e s) { s with wdt := if s.cfg.wdtEnabled then wdt else s.wdt, psc := psc })
  | .overdrive p mask => .next (wakeIf (wakes e s) { s with overdrive := s.overdrive.set p mask })
  | .run | .intEdge _ | .portBChange | .timer0Overflow | .eepromDone | .eeifCleared | .other _ =>
    .next (wakeIf (wakes e s) (setRequest e s))

end Sys2Proof.Machine
end

