-- ==== Sys2Proof/Machine/Fetch.lean ====
section
/-! DEFINITION. Fetch, decode and execute, and what happens at an instruction boundary (20_memory.md R72,
60_exceptions.md R227, R230). -/

namespace Sys2Proof.Machine

/-- Fetch(pc) (R72), without a side effect. -/
def fetch (s : State) : Option InstrWord := progRead s.cfg s.prog s.pc

/-- The core executes the instruction at pc (R72, R103, R106); it is then no longer the first one after a wake-up. -/
def runInstr (s : State) : Result :=
  match fetch s with
  | none => .fault (.fetchUnmapped s.pc)
  | some w =>
    match decode w with
    | .error _ => .refused (.reservedEncoding w s.pc)
    | .ok i => exec i { s with justWoke := false }

/-- An instruction boundary that is the core's (R227, R230): held asleep (R47, R239), or an interrupt entry, or the
instruction at pc. -/
def boundary (s : State) : Result :=
  if s.asleep then .next s
  else if samplesIrq s then
    if irq s then enterInterrupt (afterIrq s) else runInstr (afterIrq s)
  else runInstr s

/-- One step: the environment's next event, or the core's boundary where there is none. -/
def stepOnce (s : State) : Result :=
  match s.env with
  | [] => boundary s
  | .run :: rest => boundary { s with env := rest }
  | e :: rest => applyEvent e { s with env := rest }

/-- The state with word `w` where the next fetch reads, awake, with a silent environment and no interrupt entry before
the instruction, so that the next step runs it (log 6). -/
def placeWord (w : InstrWord) (s : State) : State :=
  { s with
    prog := progWrite s.cfg s.prog s.pc w
    asleep := false
    env := []
    justWoke := s.justWoke || s.gie }

end Sys2Proof.Machine
end

