-- ==== Sys2Proof/Machine/Step.lean ====
section
/-! DEFINITION. The step function, and the placing of a word where the next step fetches it. -/

namespace Sys2Proof.Machine

/-- One step of the machine (20_memory.md R78): a boundary of the core, or one event of its environment. -/
def step (s : State) : Host.Outcome State Fault Refusal := stepOnce s

/-- `s` with the instruction whose bits are `w` stored where `step` fetches next (log 6). -/
def State.withFetchWord (s : State) (_nbits w : Nat) : State := placeWord (BitVec.ofNat 14 w) s

end Sys2Proof.Machine
end

