-- ==== Sys2Proof/Safety.lean ====
section
/-! DEFINITION. What counts as a well-formed state, an ended run and a safe run, in the terms claims use. -/

namespace Sys2Proof.Machine

/-- The state invariant: a configuration that describes a machine, both stores in canonical form, no more return
addresses than the stack has levels (10_state.md R20), the pointer at one of its slots, and,
for the circular stack, every slot listed (R69, R50). -/
def State.Inv (s : State) : Bool :=
  s.cfg.wf && s.gpr.wf && ProgMem.wf s.cfg s.prog && decide (s.stack.length ≤ s.cfg.stackDepth) &&
    decide (s.stackPtr < s.cfg.stackDepth) &&
    (decide (s.cfg.stackPolicy = .fault) || decide (s.stack.length + s.stale.length = s.cfg.stackDepth))

/-- HALT (00_scope.md R4, D34): the predicate the configuration names as the end of a run. -/
def State.halted (s : State) : Bool :=
  match s.cfg.halt with
  | .never => false
  | .asleep => s.asleep
  | .atAddress a => decide (s.pc = a)
  | .unconstrained => Config.openHalt s.arch

/-- `n` steps that stop at no outcome of R221, or that reach a state that the claim's own HALT predicate names before
(R4, D34). -/
def safeUntil (halt : State → Bool) : Nat → State → Bool
  | 0, _ => true
  | n + 1, s =>
    halt s ||
      match step s with
      | .next s' => safeUntil halt n s'
      | .fault _ => false
      | .refused _ => false

/-- The same by the configuration's HALT. -/
def safeFor (n : Nat) (s : State) : Bool := safeUntil State.halted n s

end Sys2Proof.Machine
end

