-- ==== Sys2Proof/Certificates/Slice0/Obligations.lean ====
section
/-! DEFINITION. The statements for the provers. Their first part says, in the terms of the state's own fields, what a
file register access reads and writes (10_state.md R40, R41); the statements about instructions use it.

Where a docstring says "rests on D<n>", the clause is the spec's own decision (92_eei_decisions.md), not the source's
sentence; "P84" is profile P84, general knowledge by the spec's own mark (log 1). -/

namespace Sys2Proof.Machine

/-- The file operand has a register behind it, or the configuration gives an empty address a value (D12, R67). -/
def FileAccessible (s : State) (f : FileAddr) : Prop :=
  fileMap s f = .unmapped → s.cfg.unmapped = .readZero

/-- F[f] at the start of the instruction. -/
def fileValue (s : State) (f : FileAddr) : Byte := readValue (fileMap s f) s

/-- The opcode table's word `w` is instruction `i`. -/
def EncodesAs (w : Nat) (i : Instr) : Prop := decode (BitVec.ofNat 14 w) = .ok i

/-- d as the number in bit 7 of a word. -/
def destNum : Dest → Nat
  | .w => 0
  | .f => 1

/-- A write with destination `d` lands on target `t'`, the operand's target being `t`. -/
abbrev LandsOn (t : Target) (d : Dest) (t' : Target) : Prop := d = .f ∧ t = t'

/-- What `dest(f, d) <- r` leaves in every field but the pc, the cycle count and the three arithmetic flags, by the
target of f (R41), every other field being as it was (the frame): a write to a device register is recorded and changes
nothing else. A read that is a draw counts one (R40, log 8); the list of events is the model's (log 22). -/
structure FileWritten (s u : State) (t : Target) (d : Dest) (r : Byte) : Prop where
  w : u.w = if d = .w then r else s.w
  gpr : ∀ j, u.gpr.read j = if LandsOn t d (.gpr j) then r else s.gpr.read j
  pclath : u.pclath = if LandsOn t d .pcLatch then r.extractLsb' 0 5 else s.pclath
  other0 : u.statusOther.getLsbD 0 =
    if LandsOn t d .status then r.getLsbD s.cfg.statusLayout.other0.val else s.statusOther.getLsbD 0
  other1 : u.statusOther.getLsbD 1 =
    if LandsOn t d .status then r.getLsbD s.cfg.statusLayout.other1.val else s.statusOther.getLsbD 1
  other2 : u.statusOther.getLsbD 2 =
    if LandsOn t d .status then r.getLsbD s.cfg.statusLayout.other2.val else s.statusOther.getLsbD 2
  gie : u.gie = if LandsOn t d .intcon then r.getLsbD 7 else s.gie
  intconLo : u.intconLo = if LandsOn t d .intcon then r.extractLsb' 0 7 else s.intconLo
  fsr : u.fsr = if LandsOn t d .fsr then r else s.fsr
  option : u.option = if LandsOn t d .option then r else s.option
  tmr0 : u.tmr0 = if LandsOn t d .tmr0 then r else s.tmr0
  psc : u.psc = if LandsOn t d .tmr0 ∧ psaTmr0 s = true then 0 else s.psc
  latch : ∀ p, u.latch.get p = if LandsOn t d (.port p) then r else s.latch.get p
  tris : ∀ p, u.tris.get p = if LandsOn t d (.tris p) then r else s.tris.get p
  eeif : u.eeif = s.eeif ∧ u.eeifMark = s.eeifMark
  portEvent : ∀ p, LandsOn t d (.port p) → u.events = .port p r :: s.events
  deviceEvent : ∀ i, LandsOn t d (.device i) → u.events = .device i r :: s.events
  noEvent : (∀ p, ¬ LandsOn t d (.port p)) → (∀ i, ¬ LandsOn t d (.device i)) → u.events = s.events
  draws : u.draws = s.draws + (if drawsOnRead t then 1 else 0)
  powerBits : u.toBit = s.toBit ∧ u.pdBit = s.pdBit
  stack : u.stack = s.stack ∧ u.stale = s.stale ∧ u.stackPtr = s.stackPtr
  timers : u.wdt = s.wdt ∧ u.asleep = s.asleep ∧ u.justWoke = s.justWoke
  arguments : u.prog = s.prog ∧ u.cfg = s.cfg ∧ u.env = s.env ∧ u.overdrive = s.overdrive

/-- A flag after the data write of an instruction that does not list it (R43): the status image's bit, or unchanged. -/
def dataFlag (t : Target) (d : Dest) (r : Byte) (p : Fin 8) (old : Bool) : Bool :=
  if LandsOn t d .status then r.getLsbD p.val else old

/-- The three arithmetic flags after an instruction whose listed flags are `c`, `dc`, `z` (none: not listed): a listed
flag takes its result's value and wins over the data write (R41, R43). -/
structure FlagsAre (s u : State) (t : Target) (d : Dest) (r : Byte) (c dc z : Option Bool) : Prop where
  c : u.c = c.getD (dataFlag t d r s.cfg.statusLayout.cPos s.c)
  dc : u.dc = dc.getD (dataFlag t d r s.cfg.statusLayout.dcPos s.dc)
  z : u.z = z.getD (dataFlag t d r s.cfg.statusLayout.zPos s.z)

/-- The whole effect of an instruction of R130's template whose result is `r`: destination, flags, and finish(): the
pc loaded from PCLATH and the result in two cycles where the destination is PcLow, else the next instruction in
one. -/
structure ByteEffect (s u : State) (t : Target) (d : Dest) (r : Byte) (c dc z : Option Bool) : Prop where
  file : FileWritten s u t d r
  flags : FlagsAre s u t d r c dc z
  pc : u.pc = if LandsOn t d .pcLow then s.pclath ++ r else s.pc + 1
  cycles : u.cycles = s.cycles + (if LandsOn t d .pcLow then 2 else 1)

/-- An instruction of R130's template completes, with the effect of ByteEffect. -/
def CompletesWith (i : Instr) (s : State) (f : FileAddr) (d : Dest) (r : Byte) (c dc z : Option Bool) : Prop :=
  ∃ u, exec i s = .next u ∧ ByteEffect s u (fileMap s f) d r c dc z

/-- The 20 instructions with a file operand, at that operand. -/
def fileInstrs (f : FileAddr) (d : Dest) (b : BitVec 3) : List Instr :=
  [.addwf f d, .andwf f d, .clrf f, .comf f d, .decf f d, .decfsz f d, .incf f d, .incfsz f d, .iorwf f d, .movf f d,
    .movwf f, .rlf f d, .rrf f d, .subwf f d, .swapf f d, .xorwf f d, .bcf f b, .bsf f b, .btfsc f b, .btfss f b]

/-- The file address and the destination of an instruction that writes its file operand's destination. -/
def writeOperand : Instr → Option (FileAddr × Dest)
  | .addwf f d | .andwf f d | .comf f d | .decf f d | .decfsz f d | .incf f d | .incfsz f d | .iorwf f d | .movf f d
  | .rlf f d | .rrf f d | .subwf f d | .swapf f d | .xorwf f d => some (f, d)
  | .clrf f | .movwf f | .bcf f _ | .bsf f _ => some (f, .f)
  | .clrw | .nop | .btfsc _ _ | .btfss _ _ | .addlw _ | .andlw _ | .call _ | .clrwdt | .goto _ | .iorlw _ | .movlw _
  | .retfie | .retlw _ | .ret | .sleep | .sublw _ | .xorlw _ | .option | .tris _ => none

/-- The instruction writes to target `t` as a file register. -/
def WritesTarget (i : Instr) (s : State) (t : Target) : Prop :=
  ∃ f, writeOperand i = some (f, .f) ∧ fileMap s f = t

/-- The instructions that list C under Status Affected (R32). -/
def listsC : Instr → Bool
  | .addwf _ _ | .addlw _ | .subwf _ _ | .sublw _ | .rlf _ _ | .rrf _ _ => true
  | _ => false

/-- The instructions that list DC under Status Affected (R32). -/
def listsDc : Instr → Bool
  | .addwf _ _ | .addlw _ | .subwf _ _ | .sublw _ => true
  | _ => false

/-- The instructions that list Z under Status Affected (R32). -/
def listsZ : Instr → Bool
  | .addwf _ _ | .addlw _ | .subwf _ _ | .sublw _ | .andwf _ _ | .andlw _ | .iorwf _ _ | .iorlw _ | .xorwf _ _
  | .xorlw _ | .comf _ _ | .decf _ _ | .incf _ _ | .movf _ _ | .clrf _ | .clrw => true
  | _ => false

/-- The answer of a step with a function applied to its next state. -/
def mapNext (g : State → State) : Result → Result
  | .next u => .next (g u)
  | .fault e => .fault e
  | .refused e => .refused e

/-- The don't-care bits of an instruction's row as zeros, the others as ones (R105). -/
def careMask : Instr → InstrWord
  | .clrw => 0x3F80
  | .nop => 0x3F9F
  | .movlw _ | .retlw _ => 0x3CFF
  | .addlw _ | .sublw _ => 0x3EFF
  | _ => 0x3FFF

/-- The 372 words of R106. -/
def reservedWord (w : Nat) : Bool :=
  (decide (0x0001 ≤ w) && decide (w ≤ 0x0007)) || (decide (0x000A ≤ w) && decide (w ≤ 0x001F)) ||
    (decide (0x0021 ≤ w) && decide (w ≤ 0x003F)) || (decide (0x0041 ≤ w) && decide (w ≤ 0x005F)) ||
    decide (w = 0x0061) || (decide (0x0068 ≤ w) && decide (w ≤ 0x007F)) ||
    (decide (0x3B00 ≤ w) && decide (w ≤ 0x3BFF))

/-- The core has the coming boundary: awake, and the environment silent, or standing aside by the entry `run`. -/
def CoreRuns (s : State) : Prop := s.asleep = false ∧ s.env.headD .run = .run

/-- No interrupt entry is due at the coming boundary (R223, R230, R240). -/
def NoEntryDue (s : State) : Prop := s.gie = false ∨ s.justWoke = true ∨ irq s = false

/-- The state an instruction starts from at a boundary of the core: no longer the first one after a wake-up, and, where
irq is left open and is looked at, a draw taken (log 13, log 17); the environment's entry `run`, if one gave the
boundary, is consumed (log 11). -/
def atBoundary (s : State) : State :=
  { s with
    justWoke := false
    env := s.env.tail
    draws :=
      s.draws + (if s.gie = true ∧ s.justWoke = false ∧ s.cfg.irq = .unconstrained then 1 else 0) }

/-- The entry a pop from an empty circular stack returns (R69, log 10): the first stale slot, or a free value. -/
def staleTop (s : State) : ProgAddr := s.stale.headD (Config.drawPc s.draws)

/-- What the pop of a return leaves in `u`, `a` being the address popped: both stack policies, empty or not. Every
field but the pc, the stack, its stale slots and its pointer (R69, R50), the cycle count, the draws, W and GIE is as it
was. -/
structure Popped (s u : State) (a : ProgAddr) : Prop where
  address : a = s.stack.headD (staleTop s)
  pc : u.pc = a
  cycles : u.cycles = s.cycles + 2
  stack : u.stack = s.stack.tail
  pointer : u.stackPtr = (s.stackPtr + (s.cfg.stackDepth - 1)) % s.cfg.stackDepth
  staleFault : s.cfg.stackPolicy = .fault → u.stale = s.stale
  staleLive : s.cfg.stackPolicy = .circular → s.stack ≠ [] → u.stale = s.stale ++ [a]
  staleEmpty : s.cfg.stackPolicy = .circular → s.stack = [] → s.stale ≠ [] → u.stale = s.stale.tail ++ [a]
  staleUnlisted : s.cfg.stackPolicy = .circular → s.stack = [] → s.stale = [] → u.stale = []
  draws : u.draws =
    s.draws + (if s.cfg.stackPolicy = .circular ∧ s.stack = [] ∧ s.stale = [] then 1 else 0)
  rest : u = { s with w := u.w, gie := u.gie, pc := u.pc, cycles := u.cycles, stack := u.stack, stale := u.stale,
                      stackPtr := u.stackPtr, draws := u.draws }

/-- The four instructions that can skip (R27, R106). -/
def skipInstrs (f : FileAddr) (d : Dest) (b : BitVec 3) : List Instr :=
  [.btfsc f b, .btfss f b, .decfsz f d, .incfsz f d]

/-- The word at pc + 1 is a cell of program memory of its own: neither the one at pc nor the one at pc + 2 is an alias of
it. So it is at every pc for every number of program words but 1, and 8191, where 0x1FFF aliases 0x0000 (R69). -/
def SkippedWordApart (s : State) : Prop :=
  s.pc.toNat % s.cfg.progWords ≠ (s.pc + 1).toNat % s.cfg.progWords ∧
  (s.pc + 2).toNat % s.cfg.progWords ≠ (s.pc + 1).toNat % s.cfg.progWords

/-- The contents of slot `k` of a stack that lists all its slots: the newest is the one below the pointer, and the others
go down from there, around (R69, R50, log 10). -/
def stackSlot (s : State) (k : Nat) : Option ProgAddr :=
  (s.stack ++ s.stale)[(s.stackPtr + (s.cfg.stackDepth - 1 - k)) % s.cfg.stackDepth]?

/-- Software has written 0 to EEIF, bit 4 of EECON1, since the flag was last set (R226): the record of output events
holds such a write made since then (R41, log 16). -/
def SoftwareClearsEeif (s : State) : Prop :=
  ∃ v : Byte, .device .eecon1 v ∈ s.events.take (s.events.length - s.eeifMark) ∧ v.getLsbD 4 = false

/-- What a reset in the middle of a run leaves (R251, R252, R68), TO and PD given: R251's six components and P84's control
registers at their reset values, the registers unknown at power-on and the contents of the stack's slots unchanged. -/
structure ResetLeaves (s u : State) (rest : List EnvEvent) (to' pd : Bool) : Prop where
  pc : u.pc = s.cfg.resetVector
  stack : u.stack = []
  pointer : u.stackPtr = 0
  slots : s.stack.length + s.stale.length = s.cfg.stackDepth → s.stackPtr < s.cfg.stackDepth →
    ∀ k, k < s.cfg.stackDepth → stackSlot u k = stackSlot s k
  modes : u.gie = false ∧ u.asleep = false
  counts : u.wdt = 0 ∧ u.psc = 0
  powerBits : u.toBit = to' ∧ u.pdBit = pd
  intcon : u.intconLo.extractLsb' 1 6 = 0 ∧ u.intconLo.getLsbD 0 = s.intconLo.getLsbD 0
  control : u.pclath = 0 ∧ u.statusOther = 0 ∧ u.option = 0xFF ∧ u.tris.p5 = 0x1F ∧ u.tris.p6 = 0xFF
  data : u.w = s.w ∧ u.c = s.c ∧ u.dc = s.dc ∧ u.z = s.z ∧ u.fsr = s.fsr ∧ u.tmr0 = s.tmr0
  cells : u.latch = s.latch ∧ u.gpr = s.gpr
  arguments : u.prog = s.prog ∧ u.cfg = s.cfg ∧ u.env = rest

/-- A return finds an entry: the stack is not empty, or the policy is circular (R31, R69). -/
def CanPop (s : State) : Prop := s.stack ≠ [] ∨ s.cfg.stackPolicy = .circular

/-- A push finds room, or overwrites: the stack is not full, or the policy is circular (R30, R69). -/
def CanPush (s : State) : Prop := s.stack.length < s.cfg.stackDepth ∨ s.cfg.stackPolicy = .circular

/-- The stack after a push of `a` (R30, R69): with room the entry is added and a circular stack gives up a stale slot;
full, the oldest entry is overwritten; the pointer moves one slot on. -/
def pushed (a : ProgAddr) (s : State) : State :=
  if s.stack.length < s.cfg.stackDepth then
    { s with
      stack := a :: s.stack
      stale := if s.cfg.stackPolicy = .circular then s.stale.dropLast else s.stale
      stackPtr := (s.stackPtr + 1) % s.cfg.stackDepth }
  else { s with stack := a :: s.stack.dropLast, stackPtr := (s.stackPtr + 1) % s.cfg.stackDepth }

end Sys2Proof.Machine

open Sys2Proof Sys2Proof.Machine

/-! ## Byte-oriented instructions -/

/-- R135 ADDWF: W + F to the destination, C and DC the carries out of bits 7 and 3 (rests on D26), Z; on every target
(the targets rest on D9 to D11, D20 to D22). -/
def Obligations.AddwfAddsWAndFile : Prop :=
  ∀ (s : State) (f : FileAddr) (d : Dest),
    EncodesAs (0x0700 + 128 * destNum d + f.toNat) (.addwf f d) ∧
    (FileAccessible s f →
      CompletesWith (.addwf f d) s f d (s.w + fileValue s f)
        (some (decide (256 ≤ s.w.toNat + (fileValue s f).toNat)))
        (some (decide (16 ≤ s.w.toNat % 16 + (fileValue s f).toNat % 16)))
        (some (decide (s.w + fileValue s f = 0))))

/-- R150 SUBWF: F - W to the destination, C and DC set when there is no borrow (rests on D26), Z; on every target. -/
def Obligations.SubwfSubtractsWFromFile : Prop :=
  ∀ (s : State) (f : FileAddr) (d : Dest),
    EncodesAs (0x0200 + 128 * destNum d + f.toNat) (.subwf f d) ∧
    (FileAccessible s f →
      CompletesWith (.subwf f d) s f d (fileValue s f - s.w)
        (some (decide (s.w.toNat ≤ (fileValue s f).toNat)))
        (some (decide (s.w.toNat % 16 ≤ (fileValue s f).toNat % 16)))
        (some (decide (fileValue s f = s.w))))

/-- R136 ANDWF, R144 IORWF, R152 XORWF: the bitwise operation of W and F to the destination, Z (rests on D27); C and DC
are not listed. On every target. -/
def Obligations.LogicOfWAndFile : Prop :=
  ∀ (s : State) (f : FileAddr) (d : Dest),
    EncodesAs (0x0500 + 128 * destNum d + f.toNat) (.andwf f d) ∧
    EncodesAs (0x0400 + 128 * destNum d + f.toNat) (.iorwf f d) ∧
    EncodesAs (0x0600 + 128 * destNum d + f.toNat) (.xorwf f d) ∧
    (FileAccessible s f →
      CompletesWith (.andwf f d) s f d (s.w &&& fileValue s f) none none (some (decide (s.w &&& fileValue s f = 0))) ∧
      CompletesWith (.iorwf f d) s f d (s.w ||| fileValue s f) none none (some (decide (s.w ||| fileValue s f = 0))) ∧
      CompletesWith (.xorwf f d) s f d (s.w ^^^ fileValue s f) none none (some (decide (s.w = fileValue s f))))

/-- R139 COMF and R145 MOVF: the complement of F, or F itself, to the destination, Z (rests on D27). On every target. -/
def Obligations.ComplementAndMoveOfFile : Prop :=
  ∀ (s : State) (f : FileAddr) (d : Dest),
    EncodesAs (0x0900 + 128 * destNum d + f.toNat) (.comf f d) ∧
    EncodesAs (0x0800 + 128 * destNum d + f.toNat) (.movf f d) ∧
    (FileAccessible s f →
      CompletesWith (.comf f d) s f d (255 - fileValue s f) none none (some (decide (fileValue s f = 255))) ∧
      CompletesWith (.movf f d) s f d (fileValue s f) none none (some (decide (fileValue s f = 0))))

/-- R142 INCF and R140 DECF: F plus or minus one modulo 256, Z only (rests on D27). On every target. -/
def Obligations.IncrementAndDecrementOfFile : Prop :=
  ∀ (s : State) (f : FileAddr) (d : Dest),
    EncodesAs (0x0A00 + 128 * destNum d + f.toNat) (.incf f d) ∧
    EncodesAs (0x0300 + 128 * destNum d + f.toNat) (.decf f d) ∧
    (FileAccessible s f →
      CompletesWith (.incf f d) s f d (fileValue s f + 1) none none (some (decide (fileValue s f = 255))) ∧
      CompletesWith (.decf f d) s f d (fileValue s f - 1) none none (some (decide (fileValue s f = 1))))

/-- R148 RLF and R149 RRF: F rotated through C by one bit; C takes the bit rotated out, no other flag is listed. On
every target. -/
def Obligations.RotatesOfFileThroughCarry : Prop :=
  ∀ (s : State) (f : FileAddr) (d : Dest),
    EncodesAs (0x0D00 + 128 * destNum d + f.toNat) (.rlf f d) ∧
    EncodesAs (0x0C00 + 128 * destNum d + f.toNat) (.rrf f d) ∧
    (FileAccessible s f →
      CompletesWith (.rlf f d) s f d (BitVec.ofNat 8 (2 * (fileValue s f).toNat + s.c.toNat))
        (some (decide (128 ≤ (fileValue s f).toNat))) none none ∧
      CompletesWith (.rrf f d) s f d (BitVec.ofNat 8 (128 * s.c.toNat + (fileValue s f).toNat / 2))
        (some (decide ((fileValue s f).toNat % 2 = 1))) none none)

/-- R151 SWAPF: the nibbles of F exchanged to the destination; no flag is listed. On every target. -/
def Obligations.SwapfExchangesNibbles : Prop :=
  ∀ (s : State) (f : FileAddr) (d : Dest),
    EncodesAs (0x0E00 + 128 * destNum d + f.toNat) (.swapf f d) ∧
    (FileAccessible s f →
      CompletesWith (.swapf f d) s f d
        (BitVec.ofNat 8 (16 * ((fileValue s f).toNat % 16) + (fileValue s f).toNat / 16)) none none none)

/-- R137 CLRF (F becomes 0, Z becomes 1) and R146 MOVWF (F becomes W, no flag listed), each after the discarded read of
R42 (rests on D30). On every target. -/
def Obligations.ClrfAndMovwfWriteFile : Prop :=
  ∀ (s : State) (f : FileAddr),
    EncodesAs (0x0180 + f.toNat) (.clrf f) ∧
    EncodesAs (0x0080 + f.toNat) (.movwf f) ∧
    (FileAccessible s f →
      CompletesWith (.clrf f) s f .f 0 none none (some true) ∧ CompletesWith (.movwf f) s f .f s.w none none none)

/-- R138 CLRW: W becomes 0, Z becomes 1, the next instruction in one cycle; nothing else changes, and every value of
the seven don't-care bits is this instruction. -/
def Obligations.ClrwClearsW : Prop :=
  (∀ x : BitVec 7, EncodesAs (0x0100 + x.toNat) .clrw) ∧
  ∀ s : State, exec .clrw s = .next { s with w := 0x00, z := true, pc := s.pc + 1, cycles := s.cycles + 1 }

/-- R147 NOP: nothing but the pc (and the cycle count) changes; 0x0000, 0x0020, 0x0040 and 0x0060 are this
instruction. -/
def Obligations.NopOnlyAdvances : Prop :=
  (EncodesAs 0x0000 .nop ∧ EncodesAs 0x0020 .nop ∧ EncodesAs 0x0040 .nop ∧ EncodesAs 0x0060 .nop) ∧
  ∀ s : State, exec .nop s = .next { s with pc := s.pc + 1, cycles := s.cycles + 1 }

/-- R141 DECFSZ and R143 INCFSZ: F minus or plus one to the destination, no flag listed, a skip in two cycles when the
result is 0 and the next instruction in one when it is not. Every target but PcLow as destination. -/
def Obligations.DecfszAndIncfszSkipOnZero : Prop :=
  ∀ (s : State) (f : FileAddr) (d : Dest),
    EncodesAs (0x0B00 + 128 * destNum d + f.toNat) (.decfsz f d) ∧
    EncodesAs (0x0F00 + 128 * destNum d + f.toNat) (.incfsz f d) ∧
    (FileAccessible s f → ¬ LandsOn (fileMap s f) d .pcLow →
      (∃ u, exec (.decfsz f d) s = .next u ∧ FileWritten s u (fileMap s f) d (fileValue s f - 1) ∧
        FlagsAre s u (fileMap s f) d (fileValue s f - 1) none none none ∧
        u.pc = (if fileValue s f = 1 then s.pc + 2 else s.pc + 1) ∧
        u.cycles = s.cycles + (if fileValue s f = 1 then 2 else 1)) ∧
      (∃ u, exec (.incfsz f d) s = .next u ∧ FileWritten s u (fileMap s f) d (fileValue s f + 1) ∧
        FlagsAre s u (fileMap s f) d (fileValue s f + 1) none none none ∧
        u.pc = (if fileValue s f = 255 then s.pc + 2 else s.pc + 1) ∧
        u.cycles = s.cycles + (if fileValue s f = 255 then 2 else 1)))

/-- DECFSZ and INCFSZ with the low byte of the pc as destination have no meaning (R28, U6; rests on D9): the one form
of the two that R130's statements leave out, refused by name. -/
def Obligations.SkipIntoPcLowIsRefused : Prop :=
  ∀ (s : State) (f : FileAddr), fileMap s f = .pcLow →
    exec (.decfsz f .f) s = .refused (.unspecifiedPcWrite s.pc) ∧
    exec (.incfsz f .f) s = .refused (.unspecifiedPcWrite s.pc)

/-- A file address with no register: each of the instructions with a file operand has the outcome FileUnmapped, with f
and the pc recorded (R40, R41, R134, R170; rests on D12). -/
def Obligations.UnmappedFileAddressFaults : Prop :=
  ∀ (s : State) (f : FileAddr) (d : Dest) (b : BitVec 3) (i : Instr),
    fileMap s f = .unmapped → s.cfg.unmapped = .fault → i ∈ fileInstrs f d b →
      exec i s = .fault (.fileUnmapped f s.pc)

/-! ## Bit-oriented instructions -/

/-- R171 BCF and R172 BSF: F with bit b cleared or set is written back whole; no flag is listed. On every target. -/
def Obligations.BcfAndBsfWriteOneBit : Prop :=
  ∀ (s : State) (f : FileAddr) (b : BitVec 3),
    EncodesAs (0x1000 + 128 * b.toNat + f.toNat) (.bcf f b) ∧
    EncodesAs (0x1400 + 128 * b.toNat + f.toNat) (.bsf f b) ∧
    (FileAccessible s f →
      (∃ r, CompletesWith (.bcf f b) s f .f r none none none ∧
        ∀ j, j < 8 → r.getLsbD j = if j = b.toNat then false else (fileValue s f).getLsbD j) ∧
      (∃ r, CompletesWith (.bsf f b) s f .f r none none none ∧
        ∀ j, j < 8 → r.getLsbD j = if j = b.toNat then true else (fileValue s f).getLsbD j))

/-- R173 BTFSC and R174 BTFSS: a skip in two cycles when bit b of F is 0, or 1; else the next instruction in one. Nothing
else changes but the model's count of draws, where the read is one (log 8). -/
def Obligations.BtfscAndBtfssSkipOnBit : Prop :=
  ∀ (s : State) (f : FileAddr) (b : BitVec 3),
    EncodesAs (0x1800 + 128 * b.toNat + f.toNat) (.btfsc f b) ∧
    EncodesAs (0x1C00 + 128 * b.toNat + f.toNat) (.btfss f b) ∧
    (FileAccessible s f →
      exec (.btfsc f b) s = .next
        { s with
          pc := if (fileValue s f).getLsbD b.toNat then s.pc + 1 else s.pc + 2
          cycles := s.cycles + (if (fileValue s f).getLsbD b.toNat then 1 else 2)
          draws := s.draws + (if drawsOnRead (fileMap s f) then 1 else 0) } ∧
      exec (.btfss f b) s = .next
        { s with
          pc := if (fileValue s f).getLsbD b.toNat then s.pc + 2 else s.pc + 1
          cycles := s.cycles + (if (fileValue s f).getLsbD b.toNat then 2 else 1)
          draws := s.draws + (if drawsOnRead (fileMap s f) then 1 else 0) })

/-! ## Literal and control instructions -/

/-- R181 ADDLW: W + k to W, C and DC the carries (rests on D26), Z; both values of the don't-care bit. -/
def Obligations.AddlwAddsLiteral : Prop :=
  ∀ (s : State) (k : Byte),
    EncodesAs (0x3E00 + k.toNat) (.addlw k) ∧ EncodesAs (0x3F00 + k.toNat) (.addlw k) ∧
    exec (.addlw k) s = .next
      { s with
        w := s.w + k
        c := decide (256 ≤ s.w.toNat + k.toNat)
        dc := decide (16 ≤ s.w.toNat % 16 + k.toNat % 16)
        z := decide (s.w + k = 0)
        pc := s.pc + 1
        cycles := s.cycles + 1 }

/-- R192 SUBLW: k - W to W, C and DC set when there is no borrow (rests on D26), Z; both values of the don't-care
bit. -/
def Obligations.SublwSubtractsWFromLiteral : Prop :=
  ∀ (s : State) (k : Byte),
    EncodesAs (0x3C00 + k.toNat) (.sublw k) ∧ EncodesAs (0x3D00 + k.toNat) (.sublw k) ∧
    exec (.sublw k) s = .next
      { s with
        w := k - s.w
        c := decide (s.w.toNat ≤ k.toNat)
        dc := decide (s.w.toNat % 16 ≤ k.toNat % 16)
        z := decide (k = s.w)
        pc := s.pc + 1
        cycles := s.cycles + 1 }

/-- R182 ANDLW, R186 IORLW, R193 XORLW: the bitwise operation of W and k to W, Z (rests on D27). -/
def Obligations.LogicOfWAndLiteral : Prop :=
  ∀ (s : State) (k : Byte),
    EncodesAs (0x3900 + k.toNat) (.andlw k) ∧ EncodesAs (0x3800 + k.toNat) (.iorlw k) ∧
    EncodesAs (0x3A00 + k.toNat) (.xorlw k) ∧
    exec (.andlw k) s = .next
      { s with w := s.w &&& k, z := decide (s.w &&& k = 0), pc := s.pc + 1, cycles := s.cycles + 1 } ∧
    exec (.iorlw k) s = .next
      { s with w := s.w ||| k, z := decide (s.w ||| k = 0), pc := s.pc + 1, cycles := s.cycles + 1 } ∧
    exec (.xorlw k) s = .next
      { s with w := s.w ^^^ k, z := decide (s.w = k), pc := s.pc + 1, cycles := s.cycles + 1 }

/-- R187 MOVLW: k to W, no flag; the four values of the don't-care bits. -/
def Obligations.MovlwLoadsLiteral : Prop :=
  ∀ (s : State) (k : Byte) (x : BitVec 2),
    EncodesAs (0x3000 + 256 * x.toNat + k.toNat) (.movlw k) ∧
    exec (.movlw k) s = .next { s with w := k, pc := s.pc + 1, cycles := s.cycles + 1 }

/-- R183 CALL: the full 13-bit address of the next instruction is pushed, the pc gets PCLATH<4:3> above k, in two
cycles; on a full stack the outcome StackOverflow, or by P84's policy the oldest entry is overwritten (R30, R69;
rests on D6; the stale slots are the model's, log 10). -/
def Obligations.CallPushesAndJumps : Prop :=
  ∀ (s : State) (k : BitVec 11),
    EncodesAs (0x2000 + k.toNat) (.call k) ∧
    (CanPush s →
      exec (.call k) s = .next
        { pushed (s.pc + 1) s with
          pc := BitVec.ofNat 13 (2048 * (s.pclath.toNat / 8) + k.toNat), cycles := s.cycles + 2 }) ∧
    (¬ CanPush s → exec (.call k) s = .fault (.stackOverflow s.pc))

/-- R185 GOTO: the pc gets PCLATH<4:3> above k, in two cycles; nothing else changes. -/
def Obligations.GotoJumps : Prop :=
  ∀ (s : State) (k : BitVec 11),
    EncodesAs (0x2800 + k.toNat) (.goto k) ∧
    exec (.goto k) s = .next
      { s with pc := BitVec.ofNat 13 (2048 * (s.pclath.toNat / 8) + k.toNat), cycles := s.cycles + 2 }

/-- R190 RETURN, R189 RETLW, R188 RETFIE where there is an entry to pop (R31, R69; the empty circular stack is P84's):
the pc takes the popped address; RETLW alone writes W, RETFIE alone sets GIE (the stale
slots are the model's, log 10). -/
def Obligations.ReturnsPopThePc : Prop :=
  ∀ (s : State) (k : Byte) (x : BitVec 2),
    EncodesAs 0x0008 .ret ∧ EncodesAs 0x0009 .retfie ∧ EncodesAs (0x3400 + 256 * x.toNat + k.toNat) (.retlw k) ∧
    (CanPop s →
      (∃ u a, exec .ret s = .next u ∧ Popped s u a ∧ u.w = s.w ∧ u.gie = s.gie) ∧
      (∃ u a, exec (.retlw k) s = .next u ∧ Popped s u a ∧ u.w = k ∧ u.gie = s.gie) ∧
      (∃ u a, exec .retfie s = .next u ∧ Popped s u a ∧ u.w = s.w ∧ u.gie = true))

/-- R31: a return from an empty stack is the outcome StackUnderflow under the spec's own stack policy (rests on D6). -/
def Obligations.ReturnFromEmptyStackFaults : Prop :=
  ∀ (s : State) (k : Byte), s.stack = [] → s.cfg.stackPolicy = .fault →
    exec .ret s = .fault (.stackUnderflow s.pc) ∧ exec (.retlw k) s = .fault (.stackUnderflow s.pc) ∧
    exec .retfie s = .fault (.stackUnderflow s.pc)

/-- R184 CLRWDT and R191 SLEEP: the WDT count is cleared, and the prescaler where the WDT owns it (rests on D22; by P84,
PRESUMED, log 1, Timer0 owns it where OPTION<3> is 0, R63); TO becomes 1, PD becomes 1 and 0; SLEEP leaves the core
asleep at the next instruction. -/
def Obligations.ClrwdtAndSleepClearTheWatchdog : Prop :=
  EncodesAs 0x0064 .clrwdt ∧ EncodesAs 0x0063 .sleep ∧
  ∀ s : State,
    exec .clrwdt s = .next
      { s with
        wdt := 0
        psc := if psaTmr0 s then s.psc else 0
        toBit := true
        pdBit := true
        pc := s.pc + 1
        cycles := s.cycles + 1 } ∧
    exec .sleep s = .next
      { s with
        wdt := 0
        psc := if psaTmr0 s then s.psc else 0
        toBit := true
        pdBit := false
        asleep := true
        pc := s.pc + 1
        cycles := s.cycles + 1 } ∧
    (s.cfg.psaTmr0 = .p84 → (psaTmr0 s = true ↔ s.option.getLsbD 3 = false))

/-! ## OPTION and TRIS -/

/-- R211 OPTION: the OPTION register takes W, whatever the file map; nothing else changes. That it takes one cycle is the
spec's own inference (R210), counted in the optional counter (log 18). -/
def Obligations.OptionLoadsW : Prop :=
  EncodesAs 0x0062 .option ∧
  ∀ s : State, exec .option s = .next { s with option := s.w, pc := s.pc + 1, cycles := s.cycles + 1 }

/-- R212 TRIS f for f = 5, 6, 7: TRIS register f takes W, the other two and everything else stay (rests on D23). A term
with another operand, which no word decodes to, is refused by name (the model's choice, log 24). -/
def Obligations.TrisLoadsW : Prop :=
  (EncodesAs 0x0065 (.tris 5) ∧ EncodesAs 0x0066 (.tris 6) ∧ EncodesAs 0x0067 (.tris 7)) ∧
  ∀ s : State,
    exec (.tris 5) s = .next { s with tris := { s.tris with p5 := s.w }, pc := s.pc + 1, cycles := s.cycles + 1 } ∧
    exec (.tris 6) s = .next { s with tris := { s.tris with p6 := s.w }, pc := s.pc + 1, cycles := s.cycles + 1 } ∧
    exec (.tris 7) s = .next { s with tris := { s.tris with p7 := s.w }, pc := s.pc + 1, cycles := s.cycles + 1 } ∧
    ∀ f : BitVec 3, f.toNat < 5 → exec (.tris f) s = .refused (.trisNumber f)

/-! ## Encoding -/

/-- Decoding the canonical word of any well-formed instruction gives it back, every operand at every value. -/
def Obligations.DecodeOfEncode : Prop :=
  ∀ i : Instr, i.wf = true → decode (encode i) = .ok i

/-- The other direction: what a word decodes to is well formed, and the word is that instruction's canonical word in
every bit but the don't-care bits of its row (R105; rests on D8). -/
def Obligations.DecodedWordIsCanonicalButForDontCares : Prop :=
  ∀ (w : InstrWord) (i : Instr), decode w = .ok i → i.wf = true ∧ w &&& careMask i = encode i

/-- R106: exactly the words of the seven ranges are reserved, and the decoder names the word (that they are refused
rests on D7). -/
def Obligations.ReservedWordsAreThoseOfR106 : Prop :=
  ∀ w : InstrWord,
    (reservedWord w.toNat = true → decode w = .error (.reserved w)) ∧
    (reservedWord w.toNat = false → ∃ i, decode w = .ok i)

/-- A word of each family, written out from R104's pattern, is the instruction it stands for. -/
def Obligations.SampleWordsDecode : Prop :=
  decode 0b00011110100000#14 = .ok (.addwf 0x20 .f) ∧
  decode 0b01111110100000#14 = .ok (.btfss 0x20 7) ∧
  decode 0b11111000010101#14 = .ok (.addlw 0x15) ∧
  decode 0b10100100100011#14 = .ok (.goto 0x123) ∧
  decode 0b00000001100111#14 = .ok (.tris 7) ∧
  decode 0b00000000001001#14 = .ok .retfie

/-! ## The step, the invariant and the whole-machine rules -/

/-- A step runs the decoded instruction: awake, the environment silent or standing aside, no interrupt entry due, and a
word at pc that decodes. Around exec the step does what `atBoundary` says and no more (the model's bookkeeping, log 11,
log 13, log 17); moving the pc is exec's own. A reserved word is refused with the word and the pc (R106; rests on D7),
and a fetch where PROG is undefined is the outcome FetchUnmapped (R72; rests on D3). -/
def Obligations.StepRunsTheDecodedInstruction : Prop :=
  ∀ s : State, CoreRuns s → NoEntryDue s →
    (∀ (w : InstrWord) (i : Instr), fetch s = some w → decode w = .ok i → step s = exec i (atBoundary s)) ∧
    (∀ (w : InstrWord) (e : DecodeError), fetch s = some w → decode w = .error e →
      step s = .refused (.reservedEncoding w s.pc)) ∧
    (fetch s = none → step s = .fault (.fetchUnmapped s.pc))

/-- A word placed where the next step fetches is the instruction that step runs, from reset and from every other
state (the placing is the model's stand-in for a program's load, log 6). A word placed at an address is what every pc
congruent to it modulo the number of program words fetches, every other pc fetches as before, and a word that is not
listed is the erased one, or no word where there is none (R69, R72). -/
def Obligations.PlacedWordRunsNext : Prop :=
  ∀ s : State,
    (∀ (nbits n : Nat) (i : Instr), n < 2 ^ 14 → decodeTableWord nbits n = some i →
      step (s.withFetchWord nbits n) = exec i { s.withFetchWord nbits n with justWoke := false }) ∧
    (∀ (a b : ProgAddr) (w : InstrWord),
      fetch { s with prog := progWrite s.cfg s.prog a w, pc := b } =
        if b.toNat % s.cfg.progWords = a.toNat % s.cfg.progWords then some w else fetch { s with pc := b }) ∧
    ((∀ w, (s.pc.toNat % s.cfg.progWords, w) ∉ s.prog) → fetch s = s.cfg.erased)

/-- Every step keeps the state invariant: the configuration describes a machine, both stores stay in canonical form,
and the stack holds at most STACK_DEPTH entries (R20), its pointer at a slot and its circular slots all listed (the
canonical forms and the slots are the model's, log 5, log 6, log 10). -/
def Obligations.StepKeepsTheInvariant : Prop :=
  ∀ s u : State, s.Inv = true → step s = .next u → u.Inv = true

/-- The invariant holds at reset. -/
def Obligations.InvariantAtReset : Prop := State.reset.Inv = true

/-- R86: no step, of the core or of its environment, changes program memory or the configuration (rests on D25). -/
def Obligations.ProgramMemoryIsConstant : Prop :=
  ∀ s u : State, step s = .next u → u.prog = s.prog ∧ u.cfg = s.cfg

/-- R88: no instruction reads program memory as data: with any other program the same instruction does the same. -/
def Obligations.NoInstructionReadsProgramMemory : Prop :=
  ∀ (i : Instr) (s : State) (m : ProgMem),
    exec i { s with prog := m } = mapNext (fun u => { u with prog := m }) (exec i s)

/-- R27: a skipped word is never decoded. After a skip by any of the four skip instructions, the next step does not depend
on the word at pc + 1, reserved or not: the machine with another word there takes the same two steps. -/
def Obligations.SkippedWordIsNeverDecoded : Prop :=
  ∀ (s u : State) (f : FileAddr) (d : Dest) (b : BitVec 3) (i : Instr) (w x : InstrWord),
    i ∈ skipInstrs f d b → SkippedWordApart s → CoreRuns s → NoEntryDue s → fetch s = some w → decode w = .ok i →
    step s = .next u → u.pc = s.pc + 2 →
      let place := fun (v : State) => { v with prog := progWrite s.cfg s.prog (s.pc + 1) x }
      step (place s) = .next (place u) ∧ step (place u) = mapNext place (step u)

/-- R33 for instructions: none but CLRWDT and SLEEP writes TO or PD, a data write to the status image included (rests
on D11). -/
def Obligations.OnlyClrwdtAndSleepWritePowerBits : Prop :=
  ∀ (i : Instr) (s u : State), exec i s = .next u → i ≠ .clrwdt → i ≠ .sleep →
    u.toBit = s.toBit ∧ u.pdBit = s.pdBit

/-- R29, R74: no instruction but CALL and the three returns reads or writes the stack: with any other stack the same
instruction does the same. (Stated of a FileMap and predicates that P84 gives: an arbitrary one could look.) -/
def Obligations.OnlyCallAndReturnsUseTheStack : Prop :=
  ∀ (i : Instr) (s : State) (st sl : List ProgAddr) (p : Nat), s.cfg.fileMap = .p84 → s.cfg.psaTmr0 = .p84 →
    (∀ k, i ≠ .call k) → (∀ k, i ≠ .retlw k) → i ≠ .ret → i ≠ .retfie →
      exec i { s with stack := st, stale := sl, stackPtr := p } =
        mapNext (fun u => { u with stack := st, stale := sl, stackPtr := p }) (exec i s)

/-- R39, R47, R191: no instruction but CLRWDT and SLEEP changes the WDT count, and none but SLEEP enters SLEEP mode. -/
def Obligations.OnlySleepEntersSleepMode : Prop :=
  ∀ (i : Instr) (s u : State), exec i s = .next u →
    (i ≠ .clrwdt → i ≠ .sleep → u.wdt = s.wdt) ∧ (i ≠ .sleep → u.asleep = s.asleep) ∧ (i = .sleep → u.asleep = true)

/-- R32's table over all instructions: a flag that an instruction does not list is left unchanged by it, except through
a data write to the status register image (R43). -/
def Obligations.UnlistedFlagsAreUnchanged : Prop :=
  ∀ (i : Instr) (s u : State), exec i s = .next u → ¬ WritesTarget i s .status →
    (listsC i = false → u.c = s.c) ∧ (listsDc i = false → u.dc = s.dc) ∧ (listsZ i = false → u.z = s.z)

/-- GIE is changed by no instruction but RETFIE and a write to INTCON (R223), and PCLATH by none but a write to it
(R35). -/
def Obligations.GieAndPclathChangeOnlyByTheirWrites : Prop :=
  ∀ (i : Instr) (s u : State), exec i s = .next u →
    (i ≠ .retfie → ¬ WritesTarget i s .intcon → u.gie = s.gie) ∧
    (¬ WritesTarget i s .intcon → u.intconLo = s.intconLo) ∧
    (¬ WritesTarget i s .pcLatch → u.pclath = s.pclath)

/-- R130, R41: a general-purpose cell changes only when an instruction's destination is that cell. -/
def Obligations.CellsChangeOnlyAsDestinations : Prop :=
  ∀ (i : Instr) (s u : State) (j : Nat), exec i s = .next u → ¬ WritesTarget i s (.gpr j) →
    u.gpr.read j = s.gpr.read j

/-- Under P84's stack and unmapped addresses every well-formed instruction completes, in every state, but DECFSZ and
INCFSZ into PcLow (R221: the outcomes that P84 makes disappear; P84 is PRESUMED, log 1). -/
def Obligations.EveryInstructionCompletesUnderP84 : Prop :=
  ∀ (i : Instr) (s : State), i.wf = true → s.cfg.stackPolicy = .circular → s.cfg.unmapped = .readZero →
    (∀ f, (i = .decfsz f .f ∨ i = .incfsz f .f) → fileMap s f ≠ .pcLow) → ∃ u, exec i s = .next u

/-! ## Interrupts, sleep, the watchdog and reset -/

/-- R228: interrupt entry pushes the pc, clears GIE and goes to INT_VECTOR (rests on D16); on a full stack it is the
outcome StackOverflow (D6), or P84's overwriting (R69). Nothing else changes but the model's own: the stale slot that a
push with room on the circular stack gives up (log 10), the draw of an open irq (log 17), and the entry `run` consumed
(log 11). -/
def Obligations.InterruptEntry : Prop :=
  ∀ s : State, CoreRuns s → s.gie = true → s.justWoke = false → irq s = true →
    (CanPush s →
      step s = .next
        { pushed s.pc s with
          gie := false
          pc := s.cfg.intVector
          env := s.env.tail
          draws := s.draws + (if s.cfg.irq = .p84 then 0 else 1) }) ∧
    (¬ CanPush s → step s = .fault (.stackOverflow s.pc))

/-- R223, R230, R240: with GIE = 0, and at the first boundary after a wake-up, no entry is made whatever irq says: the
instruction at pc runs (rests on D17, D19). -/
def Obligations.NoEntryWhileMaskedOrJustWoken : Prop :=
  ∀ (s : State) (w : InstrWord) (i : Instr), CoreRuns s → (s.gie = false ∨ s.justWoke = true) →
    fetch s = some w → decode w = .ok i → step s = exec i { s with justWoke := false, env := s.env.tail }

/-- R226: P84's irq is the four pairs of an enable bit and a flag bit (P84 is PRESUMED, log 1; EEIF's place
is log 16). -/
def Obligations.P84IrqIsFourSources : Prop :=
  ∀ s : State, s.cfg.irq = .p84 →
    (irq s = true ↔
      (s.intconLo.getLsbD 5 = true ∧ s.intconLo.getLsbD 2 = true) ∨
      (s.intconLo.getLsbD 4 = true ∧ s.intconLo.getLsbD 1 = true) ∨
      (s.intconLo.getLsbD 3 = true ∧ s.intconLo.getLsbD 0 = true) ∨
      (s.intconLo.getLsbD 6 = true ∧ s.eeif = true))

/-- R231: entry and RETFIE are inverse: an interrupt taken and returned from at once gives the very same machine, the pc,
GIE and the stack among it, but for RETFIE's two cycles and, on the circular stack, the slot that now holds the pc as a
stale one (rests on D16; the stale slots are the model's, log 10). The pointer stands at one of the slots, as it does in
every state that meets the invariant. -/
def Obligations.RetfieResumesTheInterruptedProgram : Prop :=
  ∀ s : State, s.gie = true → s.stack.length < s.cfg.stackDepth → s.stackPtr < s.cfg.stackDepth →
    ∃ u, enterInterrupt s = .next u ∧
      exec .retfie u = .next
        { s with
          cycles := s.cycles + 2
          stale := if s.cfg.stackPolicy = .circular then s.stale.dropLast ++ [s.pc] else s.stale }

/-- R183, R190, R31: CALL and RETURN are inverse: the program goes on after the CALL with the very same machine, whatever
page the subroutine is in, but for the four cycles and, on the circular stack, the slot that now holds the return
address as a stale one (the stale slots are the model's, log 10). The pointer stands at one of the slots, as it does in
every state that meets the invariant. -/
def Obligations.ReturnGoesOnAfterTheCall : Prop :=
  ∀ (s : State) (k : BitVec 11), s.stack.length < s.cfg.stackDepth → s.stackPtr < s.cfg.stackDepth →
    ∃ u, exec (.call k) s = .next u ∧
      exec .ret u = .next
        { s with
          pc := s.pc + 1
          cycles := s.cycles + 4
          stale := if s.cfg.stackPolicy = .circular then s.stale.dropLast ++ [s.pc + 1] else s.stale }

/-- P84's circular stack (R69): STACK_DEPTH further pushes into a full or empty stack overwrite, a push and a pop
never stop, and a value pushed is the value popped next (what an empty stack pops is log 10). -/
def Obligations.CircularStackNeverStops : Prop :=
  ∀ (s : State) (v : ProgAddr), s.cfg.stackPolicy = .circular →
    (∃ u, push v s = .ok u ∧ u.stack.head? = some v ∧ ∃ u', pop u = .ok (v, u')) ∧ (∃ a u, pop s = .ok (a, u)) ∧
    (s.stack.length = s.cfg.stackDepth → ∃ u, push v s = .ok u ∧ u.stack = v :: s.stack.dropLast)

/-- R47, R239: asleep with a silent environment the core takes no instruction and makes no entry, and all state is
retained; the hold is the model's stutter (log 12). -/
def Obligations.SleepHoldsTheCore : Prop :=
  ∀ s : State, s.asleep = true →
    (s.env = [] → step s = .next s) ∧
    (∀ rest, s.env = .run :: rest → step s = .next { s with env := rest })

/-- R240 by P84: an INT edge, a PORTB change or the end of an EEPROM write sets its flag, and ends SLEEP mode exactly
when its enable bit is set, whatever GIE holds; the edge at the INT pin is the one that OPTION<6> chooses (rising for 1,
PRESUMED, log 31), and the other edge does nothing; nor does the Timer0 event asleep. The pc stays at the instruction
after SLEEP, which runs before any entry. (That events come as a list is the model's, log 11, log 21.) -/
def Obligations.InterruptRequestsWakeTheCore : Prop :=
  ∀ (s : State) (rest : List EnvEvent), s.asleep = true → s.cfg.irq = .p84 → s.cfg.wake = .p84 →
    (s.env = .intEdge (s.option.getLsbD 6) :: rest →
      step s = .next
        { s with env := rest, intconLo := s.intconLo ||| 2#7, asleep := !s.intconLo.getLsbD 4,
                 justWoke := s.intconLo.getLsbD 4 || s.justWoke }) ∧
    (s.env = .intEdge (!s.option.getLsbD 6) :: rest → step s = .next { s with env := rest }) ∧
    (s.env = .portBChange :: rest →
      step s = .next
        { s with env := rest, intconLo := s.intconLo ||| 1#7, asleep := !s.intconLo.getLsbD 3,
                 justWoke := s.intconLo.getLsbD 3 || s.justWoke }) ∧
    (s.env = .eepromDone :: rest →
      step s = .next
        { s with env := rest, eeif := true, eeifMark := s.events.length, asleep := !s.intconLo.getLsbD 6,
                 justWoke := s.intconLo.getLsbD 6 || s.justWoke }) ∧
    (s.env = .timer0Overflow :: rest → step s = .next { s with env := rest })

/-- R226, R62: awake, an event sets its own flag and nothing else, whatever the enable bits and GIE hold (by P84's
irq, log 1, log 28; which edge OPTION<6> chooses, log 31; that events come as a list is the model's, log 11). EEIF is
cleared by the EEPROM once software has written 0 to it, and not before (log 16). -/
def Obligations.EventsSetTheirFlagsWhileAwake : Prop :=
  ∀ (s : State) (rest : List EnvEvent), s.asleep = false → s.cfg.irq = .p84 →
    (s.env = .intEdge (s.option.getLsbD 6) :: rest →
      step s = .next { s with env := rest, intconLo := s.intconLo ||| 2#7 }) ∧
    (s.env = .intEdge (!s.option.getLsbD 6) :: rest → step s = .next { s with env := rest }) ∧
    (s.env = .portBChange :: rest → step s = .next { s with env := rest, intconLo := s.intconLo ||| 1#7 }) ∧
    (s.env = .timer0Overflow :: rest → step s = .next { s with env := rest, intconLo := s.intconLo ||| 4#7 }) ∧
    (s.env = .eepromDone :: rest →
      step s = .next { s with env := rest, eeif := true, eeifMark := s.events.length }) ∧
    (s.env = .eeifCleared :: rest → SoftwareClearsEeif s → step s = .next { s with env := rest, eeif := false }) ∧
    (s.env = .eeifCleared :: rest → ¬ SoftwareClearsEeif s → step s = .next { s with env := rest })

/-- R236 (rests on D18): with the WDT enabled, a time-out asleep clears TO and wakes the core at pc, PD staying; awake it
is the outcome WdtReset, or, where the configuration restarts, the reset of R252 with TO = 0 and PD = 1. With the WDT
disabled it does nothing. The wake-up marks the coming boundary as the one at which no entry is made (R230, R240, a mark
of the model's, log 13). (Which policy awake is a parameter of the model, log 14; P84's reset values, log 4; the stack's
pointer, log 15; that events come as a list, log 11.) -/
def Obligations.WatchdogTimeout : Prop :=
  ∀ (s : State) (rest : List EnvEvent), s.env = .wdtTimeout :: rest →
    (s.cfg.wdtEnabled = true → s.asleep = true →
      step s = .next { s with env := rest, toBit := false, asleep := false, justWoke := true }) ∧
    (s.cfg.wdtEnabled = true → s.asleep = false → s.cfg.wdtReset = .report → step s = .fault (.wdtReset s.pc)) ∧
    (s.cfg.wdtEnabled = true → s.asleep = false → s.cfg.wdtReset = .restart →
      ∃ u, step s = .next u ∧ ResetLeaves s u rest false true) ∧
    (s.cfg.wdtEnabled = false → step s = .next { s with env := rest })

/-- R252, R68: the master clear as a reset of P84 (PRESUMED, log 4): TO and PD unchanged in normal operation, and 1 and 0
out of SLEEP. The stack, by R251, is empty, its slots keep their contents, and its pointer stands at the first slot (that
it does after this reset too, and that EEIF and TRIS register 7 stay, is the model's, log 15). Where the configuration
reports, it is the outcome externalReset (the model's, log 15). -/
def Obligations.MasterClearRestarts : Prop :=
  ∀ (s : State) (rest : List EnvEvent), s.env = .masterClear :: rest →
    (s.cfg.masterClear = .restart →
      ∃ u, step s = .next u ∧
        (s.asleep = false → ResetLeaves s u rest s.toBit s.pdBit) ∧
        (s.asleep = true → ResetLeaves s u rest true false)) ∧
    (s.cfg.masterClear = .report → step s = .fault (.externalReset s.pc))

/-- R251, R68 and R50: what reset leaves, where the spec gives a value: the six components of R251, and P84's control
registers and stack pointer (P84's values are PRESUMED, log 4). -/
def Obligations.ResetLeavesTheSpecsValues : Prop :=
  State.reset.pc = 0x0000 ∧ State.reset.stack = [] ∧ State.reset.stackPtr = 0 ∧ State.reset.gie = false ∧
  State.reset.asleep = false ∧
  State.reset.wdt = 0 ∧ State.reset.psc = 0 ∧
  (statusImage State.reset).extractLsb' 3 5 = 0b00011#5 ∧ State.reset.pclath = 0 ∧
  State.reset.intconLo.extractLsb' 1 6 = 0 ∧ State.reset.option = 0xFF ∧ State.reset.tris.p5 = 0x1F ∧
  State.reset.tris.p6 = 0xFF

/-! ## File register access -/

/-- R43 (rests on D11): with eight distinct positions, the status image shows each flag and each other bit at its place,
and a data write changes C, DC, Z and the three other bits to the data and leaves TO and PD. -/
def Obligations.StatusImageReadAndWrite : Prop :=
  ∀ (s : State) (v : Byte), s.cfg.statusLayout.wf = true →
    let l := s.cfg.statusLayout
    ((statusImage s).getLsbD l.cPos.val = s.c ∧ (statusImage s).getLsbD l.dcPos.val = s.dc ∧
      (statusImage s).getLsbD l.zPos.val = s.z ∧ (statusImage s).getLsbD l.pdPos.val = s.pdBit ∧
      (statusImage s).getLsbD l.toPos.val = s.toBit ∧
      (statusImage s).getLsbD l.other0.val = s.statusOther.getLsbD 0 ∧
      (statusImage s).getLsbD l.other1.val = s.statusOther.getLsbD 1 ∧
      (statusImage s).getLsbD l.other2.val = s.statusOther.getLsbD 2) ∧
    ∀ j : Fin 8, (statusImage (writeTarget .status v s)).getLsbD j.val =
      if j = l.toPos then s.toBit else if j = l.pdPos then s.pdBit else v.getLsbD j.val

/-- R40's table of what each target reads as, for the targets that hold a value of their own, R28's read of PcLow (rests
on D9, D31), INDF addressed through itself (R65) and an unmapped address by R67. TMR0 and a device register read as the
next free value (R38, R79, log 8), and with the I/O registers (see PortReadModifyWrite) they are the targets that
draw. An unimplemented bit of a TRIS register reads 0 (R60; the mask for any part is the model's, log 23). -/
def Obligations.TargetsReadAsTheTableSays : Prop :=
  ∀ s : State,
    (∀ i, readValue (.gpr i) s = s.gpr.read i) ∧ (readValue .pcLow s).toNat = (s.pc.toNat + 1) % 8192 % 256 ∧
    (readValue .pcLatch s).toNat = s.pclath.toNat ∧ readValue .status s = statusImage s ∧
    (readValue .intcon s).toNat = 128 * s.gie.toNat + s.intconLo.toNat ∧ readValue .fsr s = s.fsr ∧
    readValue .option s = s.option ∧ readValue .indf s = 0 ∧ readValue .unmapped s = 0 ∧
    (∀ p, readValue (.tris p) s = s.tris.get p &&& s.cfg.portBits.get p) ∧
    readValue .tmr0 s = Config.drawByte s.draws ∧ (∀ i, readValue (.device i) s = Config.drawByte s.draws) ∧
    (∀ t, drawsOnRead t = true ↔ t = .tmr0 ∨ (∃ p, t = .port p) ∨ ∃ i, t = .device i)

/-- R60 and R65, P84's file map: the bank is RP0; bank 0 and bank 1 share PCL, STATUS, FSR, PCLATH, INTCON and the cells;
INDF is the register that FSR addresses (P84 is PRESUMED, log 1). -/
def Obligations.P84FileMapTable : Prop :=
  ∀ (s : State), s.cfg.fileMap = .p84 →
    (∀ f : FileAddr, 0x0C ≤ f.toNat → f.toNat ≤ 0x4F → fileMap s f = .gpr (f.toNat - 0x0C)) ∧
    (∀ f : FileAddr, 0x50 ≤ f.toNat ∨ f.toNat = 0x07 → fileMap s f = .unmapped) ∧
    (fileMap s 0x02 = .pcLow ∧ fileMap s 0x03 = .status ∧ fileMap s 0x04 = .fsr ∧ fileMap s 0x0A = .pcLatch ∧
      fileMap s 0x0B = .intcon) ∧
    (s.statusOther.getLsbD 0 = false →
      fileMap s 0x01 = .tmr0 ∧ fileMap s 0x05 = .port .p5 ∧ fileMap s 0x06 = .port .p6 ∧
      fileMap s 0x08 = .device .eedata ∧ fileMap s 0x09 = .device .eeadr) ∧
    (s.statusOther.getLsbD 0 = true →
      fileMap s 0x01 = .option ∧ fileMap s 0x05 = .tris .p5 ∧ fileMap s 0x06 = .tris .p6 ∧
      fileMap s 0x08 = .device .eecon1 ∧ fileMap s 0x09 = .device .eecon2) ∧
    (s.fsr.extractLsb' 0 7 = 0 → fileMap s 0x00 = .indf) ∧
    (s.fsr.extractLsb' 0 7 ≠ 0 →
      fileMap s 0x00 =
        fileMap { s with statusOther := BitVec.ofBool (s.fsr.getLsbD 7) |>.setWidth 3 } (s.fsr.extractLsb' 0 7))

/-- R44, R66: what a read of an I/O register sees, which is the pins and not the latch (Note 1). By P84's law an
implemented output pin that is not overdriven shows its latch bit, and one that is an input or overdriven the free value;
under no law every implemented pin is free; an unimplemented one reads 0 (R60; for any part, log 23). A bit that BSF or
BCF does not name is rewritten with what the read saw, not with the old latch. P84's law is PRESUMED, and overdriving the
model's input (log 1, log 8, log 9). -/
def Obligations.PortReadModifyWrite : Prop :=
  ∀ (s : State) (f : FileAddr) (b : BitVec 3) (p : PortNum), fileMap s f = .port p →
    (s.cfg.pins = .p84 → ∀ j, j < 8 → (s.cfg.portBits.get p).getLsbD j = true → (s.tris.get p).getLsbD j = false →
      (s.overdrive.get p).getLsbD j = false → (fileValue s f).getLsbD j = (s.latch.get p).getLsbD j) ∧
    (s.cfg.pins = .p84 → ∀ j, j < 8 → (s.cfg.portBits.get p).getLsbD j = true →
      ((s.tris.get p).getLsbD j = true ∨ (s.overdrive.get p).getLsbD j = true) →
        (fileValue s f).getLsbD j = (Config.drawByte s.draws).getLsbD j) ∧
    (s.cfg.pins = .unconstrained → fileValue s f = Config.drawByte s.draws &&& s.cfg.portBits.get p) ∧
    (∀ j, j < 8 → (s.cfg.portBits.get p).getLsbD j = false → (fileValue s f).getLsbD j = false) ∧
    (∃ u, exec (.bsf f b) s = .next u ∧
      ∀ j, j < 8 → (u.latch.get p).getLsbD j = if j = b.toNat then true else (fileValue s f).getLsbD j) ∧
    (∃ u, exec (.bcf f b) s = .next u ∧
      ∀ j, j < 8 → (u.latch.get p).getLsbD j = if j = b.toNat then false else (fileValue s f).getLsbD j)
end

