-- ==== Sys2Proof/Laws/Env.lean ====
section
/-! SUPPORT. What the environment's operations can do: a request, a wake-up, the two resets, one event. -/

namespace Sys2Proof.Machine

/-- A request sets one flag of INTCON, or is about EEIF, or does nothing (R226). -/
theorem setRequest_cases (e : EnvEvent) (s : State) :
    setRequest e s = s ∨ (∃ b, setRequest e s = setIntconFlag b s) ∨
      ∃ b n, setRequest e s = { s with eeif := b, eeifMark := n } := by
  unfold setRequest
  split
  · split
    · exact .inl rfl
    · exact .inr (.inl ⟨2, rfl⟩)
  · split
    · exact .inr (.inl ⟨1, rfl⟩)
    · exact .inl rfl
  · exact .inr (.inl ⟨0, rfl⟩)
  · exact .inr (.inr ⟨_, _, rfl⟩)
  · split
    · exact .inr (.inr ⟨_, _, rfl⟩)
    · exact .inl rfl
  · exact .inl rfl

/-- Software's write of 0 to EEIF, and it alone, lets the EEPROM clear the flag (R226). -/
theorem setRequest_eeifCleared (s : State) (h : s.cfg.irq = .p84) :
    setRequest .eeifCleared s = { s with eeif := s.eeif && !eeifClearDue s } := by
  unfold setRequest
  cases eeifClearDue s <;> simp [h]

/-- SLEEP mode ends, or nothing changes (R240). -/
theorem wakeIf_cases (b : Bool) (s : State) : wakeIf b s = s ∨ (s.asleep = true ∧ b = true ∧ wakeIf b s = wake s) := by
  unfold wakeIf
  split
  · rename_i h
    simp only [Bool.and_eq_true] at h
    exact .inr ⟨h.1, h.2, rfl⟩
  · exact .inl rfl

theorem wakeIf_of_awake {s : State} (b : Bool) (h : s.asleep = false) : wakeIf b s = s := by simp [wakeIf, h]

/-- All that the WDT time-out can do when it does not report a reset (R235, R236, R252). -/
theorem wdtTimeout_cases {s u : State} (h : wdtTimeout s = .next u) :
    (s.cfg.wdtEnabled = false ∧ u = s) ∨
      (s.cfg.wdtEnabled = true ∧ s.asleep = true ∧ u = wake { s with toBit := false }) ∨
      (s.cfg.wdtEnabled = true ∧ s.asleep = false ∧ s.cfg.wdtReset = .restart ∧ u = restart false true s) := by
  unfold wdtTimeout at h
  cases hw : s.cfg.wdtEnabled <;> cases ha : s.asleep <;> cases hr : s.cfg.wdtReset <;> simp_all

/-- All that the master clear can do when it does not report a reset (R252). -/
theorem masterClear_cases {s u : State} (h : masterClear s = .next u) :
    s.cfg.masterClear = .restart ∧
      ((s.asleep = true ∧ u = restart true false s) ∨ (s.asleep = false ∧ u = restart s.toBit s.pdBit s)) := by
  unfold masterClear at h
  cases hm : s.cfg.masterClear <;> cases ha : s.asleep <;> simp_all

/-- All that one event can do when it does not report a reset. -/
theorem applyEvent_cases {e : EnvEvent} {s u : State} (h : applyEvent e s = .next u) :
    (e = .wdtTimeout ∧ wdtTimeout s = .next u) ∨ (e = .masterClear ∧ masterClear s = .next u) ∨
      (∃ v, u = wakeIf (wakes e s) v ∧
        (v = setRequest e s ∨ (∃ wdt psc, v = { s with wdt := wdt, psc := psc }) ∨
          ∃ p mask, v = { s with overdrive := s.overdrive.set p mask })) := by
  cases e <;> simp only [applyEvent, Host.Outcome.next.injEq] at h
  case wdtTimeout => exact .inl ⟨rfl, h⟩
  case masterClear => exact .inr (.inl ⟨rfl, h⟩)
  case counters => exact .inr (.inr ⟨_, h.symm, .inr (.inl ⟨_, _, rfl⟩)⟩)
  case overdrive => exact .inr (.inr ⟨_, h.symm, .inr (.inr ⟨_, _, rfl⟩)⟩)
  all_goals exact .inr (.inr ⟨_, h.symm, .inl rfl⟩)

/-! What a reset in the middle of a run leaves (R251, R252, R68). -/

section
variable (to' pd : Bool) (s : State)

@[simp] theorem restart_pc : (restart to' pd s).pc = s.cfg.resetVector := rfl
@[simp] theorem restart_stack : (restart to' pd s).stack = [] := rfl
theorem restart_stale :
    (restart to' pd s).stale = (s.stack ++ s.stale).drop s.stackPtr ++ (s.stack ++ s.stale).take s.stackPtr := rfl
/-- A reset loses none of the stack's slots (R252). -/
@[simp] theorem restart_stale_length : (restart to' pd s).stale.length = s.stack.length + s.stale.length := by
  simp only [restart_stale, List.length_append, List.length_drop, List.length_take]
  omega
@[simp] theorem restart_stackPtr : (restart to' pd s).stackPtr = 0 := rfl
@[simp] theorem restart_toBit : (restart to' pd s).toBit = to' := rfl
@[simp] theorem restart_pdBit : (restart to' pd s).pdBit = pd := rfl
@[simp] theorem restart_gie : (restart to' pd s).gie = false := rfl
@[simp] theorem restart_intconLo : (restart to' pd s).intconLo = s.intconLo &&& 1#7 := rfl
@[simp] theorem restart_asleep : (restart to' pd s).asleep = false := rfl
@[simp] theorem restart_gpr : (restart to' pd s).gpr = s.gpr := rfl
@[simp] theorem restart_prog : (restart to' pd s).prog = s.prog := rfl
@[simp] theorem restart_cfg : (restart to' pd s).cfg = s.cfg := rfl

end

end Sys2Proof.Machine
end

