-- ==== Sys2Proof/Laws/Exec.lean ====
section
/-! SUPPORT. Each instruction as the shared operation its meaning is one line over. -/

namespace Sys2Proof.Machine

theorem exec_addwf (f : FileAddr) (d : Dest) (s : State) :
    exec (.addwf f d) s = byteOp f d (fun a => add8 s.w a) s := rfl
theorem exec_andwf (f : FileAddr) (d : Dest) (s : State) :
    exec (.andwf f d) s = byteOp f d (fun a => withZ (s.w &&& a)) s := rfl
theorem exec_clrf (f : FileAddr) (s : State) :
    exec (.clrf f) s = byteOp f .f (fun _ => { r := 0x00, z := some true }) s := rfl
theorem exec_clrw (s : State) : exec .clrw s = literalOp { r := 0x00, z := some true } s := rfl
theorem exec_comf (f : FileAddr) (d : Dest) (s : State) :
    exec (.comf f d) s = byteOp f d (fun a => withZ (~~~a)) s := rfl
theorem exec_decf (f : FileAddr) (d : Dest) (s : State) :
    exec (.decf f d) s = byteOp f d (fun a => withZ (a - 1)) s := rfl
theorem exec_decfsz (f : FileAddr) (d : Dest) (s : State) :
    exec (.decfsz f d) s = skipOp f d (fun a => a - 1) s := rfl
theorem exec_incf (f : FileAddr) (d : Dest) (s : State) :
    exec (.incf f d) s = byteOp f d (fun a => withZ (a + 1)) s := rfl
theorem exec_incfsz (f : FileAddr) (d : Dest) (s : State) :
    exec (.incfsz f d) s = skipOp f d (fun a => a + 1) s := rfl
theorem exec_iorwf (f : FileAddr) (d : Dest) (s : State) :
    exec (.iorwf f d) s = byteOp f d (fun a => withZ (s.w ||| a)) s := rfl
theorem exec_movf (f : FileAddr) (d : Dest) (s : State) : exec (.movf f d) s = byteOp f d (fun a => withZ a) s := rfl
theorem exec_movwf (f : FileAddr) (s : State) : exec (.movwf f) s = byteOp f .f (fun _ => noFlags s.w) s := rfl
theorem exec_nop (s : State) : exec .nop s = .next (nextInstr s) := rfl
theorem exec_rlf (f : FileAddr) (d : Dest) (s : State) :
    exec (.rlf f d) s = byteOp f d (fun a => rotateLeft a s.c) s := rfl
theorem exec_rrf (f : FileAddr) (d : Dest) (s : State) :
    exec (.rrf f d) s = byteOp f d (fun a => rotateRight a s.c) s := rfl
theorem exec_subwf (f : FileAddr) (d : Dest) (s : State) :
    exec (.subwf f d) s = byteOp f d (fun a => sub8 a s.w) s := rfl
theorem exec_swapf (f : FileAddr) (d : Dest) (s : State) :
    exec (.swapf f d) s = byteOp f d (fun a => noFlags (swapNibbles a)) s := rfl
theorem exec_xorwf (f : FileAddr) (d : Dest) (s : State) :
    exec (.xorwf f d) s = byteOp f d (fun a => withZ (s.w ^^^ a)) s := rfl
theorem exec_bcf (f : FileAddr) (b : BitVec 3) (s : State) :
    exec (.bcf f b) s = byteOp f .f (fun a => noFlags (clearBit a b)) s := rfl
theorem exec_bsf (f : FileAddr) (b : BitVec 3) (s : State) :
    exec (.bsf f b) s = byteOp f .f (fun a => noFlags (setBit a b)) s := rfl
theorem exec_btfsc (f : FileAddr) (b : BitVec 3) (s : State) : exec (.btfsc f b) s = testOp f b false s := rfl
theorem exec_btfss (f : FileAddr) (b : BitVec 3) (s : State) : exec (.btfss f b) s = testOp f b true s := rfl
theorem exec_addlw (k : Byte) (s : State) : exec (.addlw k) s = literalOp (add8 s.w k) s := rfl
theorem exec_andlw (k : Byte) (s : State) : exec (.andlw k) s = literalOp (withZ (s.w &&& k)) s := rfl
theorem exec_call (k : BitVec 11) (s : State) : exec (.call k) s = execCall k s := rfl
theorem exec_clrwdt (s : State) : exec .clrwdt s = .next (nextInstr (setPowerBits true true (clearWdt s))) := rfl
theorem exec_goto (k : BitVec 11) (s : State) : exec (.goto k) s = .next (jumpTo (pageTarget s k) s) := rfl
theorem exec_iorlw (k : Byte) (s : State) : exec (.iorlw k) s = literalOp (withZ (s.w ||| k)) s := rfl
theorem exec_movlw (k : Byte) (s : State) : exec (.movlw k) s = literalOp (noFlags k) s := rfl
theorem exec_retfie (s : State) : exec .retfie s = returnFromInterrupt s := rfl
theorem exec_retlw (k : Byte) (s : State) : exec (.retlw k) s = popPc (setW k s) := rfl
theorem exec_ret (s : State) : exec .ret s = popPc s := rfl
theorem exec_sleep (s : State) :
    exec .sleep s = .next { nextInstr (setPowerBits true false (clearWdt s)) with asleep := true } := rfl
theorem exec_sublw (k : Byte) (s : State) : exec (.sublw k) s = literalOp (sub8 k s.w) s := rfl
theorem exec_xorlw (k : Byte) (s : State) : exec (.xorlw k) s = literalOp (withZ (s.w ^^^ k)) s := rfl
theorem exec_option (s : State) : exec .option s = .next (nextInstr { s with option := s.w }) := rfl
theorem exec_tris (f : BitVec 3) (s : State) : exec (.tris f) s = execTris f s := rfl

end Sys2Proof.Machine
end

