-- ==== Sys2Proof/Laws/Flags.lean ====
section
/-! SUPPORT. The arithmetic of Flags.lean as plain facts, and the three other bits of the status image. -/

namespace Sys2Proof.Machine

theorem zf_eq (r : Byte) : zf r = decide (r = 0) := rfl

theorem withZ_eq (r : Byte) : withZ r = { r := r, z := some (decide (r = 0)) } := rfl

/-- R131: the sum, its two carries and Z. -/
theorem add8_eq (a b : Byte) :
    add8 a b =
      { r := a + b
        c := some (decide (256 ≤ a.toNat + b.toNat))
        dc := some (decide (16 ≤ a.toNat % 16 + b.toNat % 16))
        z := some (decide (a + b = 0)) } := by
  simp [add8, zf_eq, BitVec.ofNat_add]

/-- R132: the difference, with C and DC set when there is no borrow, and Z. -/
theorem sub8_eq (a b : Byte) :
    sub8 a b =
      { r := a - b
        c := some (decide (b.toNat ≤ a.toNat))
        dc := some (decide (b.toNat % 16 ≤ a.toNat % 16))
        z := some (decide (a = b)) } := by
  have ha := a.isLt
  have hb := b.isLt
  have hr : BitVec.ofNat 8 (a.toNat + (255 - b.toNat) + 1) = a - b := by
    apply BitVec.eq_of_toNat_eq
    simp [BitVec.toNat_sub]
    omega
  simp only [sub8, zf_eq, hr]
  congr 2
  · congr 1
    simp
    omega
  · simp
    omega
  · simp [BitVec.sub_eq_iff_eq_add]

/-- The three bits that a write to the status image puts into `statusOther` (R43). -/
theorem ofBool_three_bits (a b c : Bool) :
    (BitVec.ofBool a ++ BitVec.ofBool b ++ BitVec.ofBool c).getLsbD 0 = c ∧
    (BitVec.ofBool a ++ BitVec.ofBool b ++ BitVec.ofBool c).getLsbD 1 = b ∧
    (BitVec.ofBool a ++ BitVec.ofBool b ++ BitVec.ofBool c).getLsbD 2 = a := by
  cases a <;> cases b <;> cases c <;> decide

theorem psaTmr0_afterRead (t : Target) (s : State) : psaTmr0 (afterRead t s) = psaTmr0 s := by
  unfold afterRead
  split <;> rfl

end Sys2Proof.Machine
end

