-- ==== Sys2Proof/Laws/Memory.lean ====
section
/-! SUPPORT. The laws of the cell lists: a read after a write, and the canonical form kept by every operation. -/

namespace Sys2Proof.Machine

variable {n : Nat} {m : List (Nat × BitVec n)} {fill : Option (BitVec n)} {a b : Nat} {v : BitVec n}

theorem cellAt_dropCell_same : cellAt (dropCell m a) a = none := by
  induction m with
  | nil => rfl
  | cons e rest ih =>
    obtain ⟨k, x⟩ := e
    by_cases h : k = a <;> simp [dropCell, cellAt, h, ih]

theorem cellAt_dropCell_other (h : b ≠ a) : cellAt (dropCell m a) b = cellAt m b := by
  induction m with
  | nil => rfl
  | cons e rest ih =>
    obtain ⟨k, x⟩ := e
    by_cases hk : k = a
    · subst hk
      simp [dropCell, cellAt, ih, Ne.symm h]
    · simp [dropCell, cellAt, hk, ih]

theorem cellAt_insertCell_same : cellAt (insertCell m a v) a = some v := by
  induction m with
  | nil => simp [insertCell, cellAt]
  | cons e rest ih =>
    obtain ⟨k, x⟩ := e
    by_cases h1 : a < k
    · simp [insertCell, cellAt, h1]
    · by_cases h2 : k = a <;> simp [insertCell, cellAt, h1, h2, ih]

theorem cellAt_insertCell_other (h : b ≠ a) : cellAt (insertCell m a v) b = cellAt m b := by
  induction m with
  | nil => simp [insertCell, cellAt, Ne.symm h]
  | cons e rest ih =>
    obtain ⟨k, x⟩ := e
    by_cases h1 : a < k
    · simp [insertCell, cellAt, h1, Ne.symm h]
    · by_cases h2 : k = a
      · subst h2
        simp [insertCell, cellAt, Ne.symm h]
      · simp [insertCell, cellAt, h1, h2, ih]

/-- A cell that was written reads, once an unlisted cell reads as `fill`, as what was written. -/
theorem cellAt_writeCell_same : (cellAt (writeCell fill m a v) a).or fill = some v := by
  unfold writeCell
  split
  · simp [cellAt_dropCell_same, *]
  · simp [cellAt_insertCell_same]

theorem cellAt_writeCell_other (h : b ≠ a) : cellAt (writeCell fill m a v) b = cellAt m b := by
  unfold writeCell
  split
  · exact cellAt_dropCell_other h
  · exact cellAt_insertCell_other h

/-- A general-purpose cell reads as what was last written to it (20_memory.md R83). -/
@[simp] theorem memory_read_write_same (g : Memory) (i : Nat) (x : Byte) : (g.write i x).read i = x := by
  have h := cellAt_writeCell_same (fill := some gprFill) (m := g) (a := i) (v := x)
  unfold Memory.read Memory.write
  cases hc : cellAt (writeCell (some gprFill) g i x) i <;> simp_all

/-- A write to one general-purpose cell leaves the others as they were. -/
theorem memory_read_write_other (g : Memory) {i j : Nat} (x : Byte) (h : j ≠ i) : (g.write i x).read j = g.read j := by
  simp [Memory.read, Memory.write, cellAt_writeCell_other h]

/-- Both together: what cell `j` reads as after a write to cell `i`. -/
theorem memory_read_write (g : Memory) (i j : Nat) (x : Byte) :
    (g.write i x).read j = if j = i then x else g.read j := by
  by_cases h : j = i
  · subst h; simp
  · simp [h, memory_read_write_other g x h]

theorem cellsAbove_weaken {lo : Option Nat} (h : cellsAbove fill lo m = true) : cellsAbove fill none m = true := by
  cases m with
  | nil => rfl
  | cons e rest => simp_all [cellsAbove]

/-- A list that lies above a bound lies above a smaller one. -/
theorem cellsAbove_mono {lo : Option Nat} {hi : Nat} (hle : ∀ c, lo = some c → c ≤ hi)
    (h : cellsAbove fill (some hi) m = true) : cellsAbove fill lo m = true := by
  cases m with
  | nil => rfl
  | cons e rest =>
    cases lo with
    | none => exact cellsAbove_weaken h
    | some c =>
      have := hle c rfl
      simp only [cellsAbove, Bool.and_eq_true, decide_eq_true_eq] at h ⊢
      exact ⟨⟨by omega, h.1.2⟩, h.2⟩

theorem cellsAbove_dropCell {lo : Option Nat} (h : cellsAbove fill lo m = true) :
    cellsAbove fill lo (dropCell m a) = true := by
  induction m generalizing lo with
  | nil => rfl
  | cons e rest ih =>
    obtain ⟨k, x⟩ := e
    simp only [cellsAbove, Bool.and_eq_true] at h
    by_cases hk : k = a
    · simp only [dropCell, hk, if_true]
      apply ih
      subst hk
      refine cellsAbove_mono (hi := k) ?_ h.2
      rintro c rfl
      have := h.1.1
      simp at this
      omega
    · simp only [dropCell, hk, if_false, cellsAbove, Bool.and_eq_true]
      exact ⟨h.1, ih h.2⟩

theorem cellsAbove_insertCell {lo : Option Nat} (hlo : ∀ c, lo = some c → c < a) (hv : fill ≠ some v)
    (h : cellsAbove fill lo m = true) : cellsAbove fill lo (insertCell m a v) = true := by
  induction m generalizing lo with
  | nil => cases lo <;> simp_all [insertCell, cellsAbove]
  | cons e rest ih =>
    obtain ⟨k, x⟩ := e
    simp only [cellsAbove, Bool.and_eq_true] at h
    by_cases h1 : a < k
    · have hx := h.1.2
      simp only [insertCell, h1, if_true, cellsAbove, Bool.and_eq_true]
      refine ⟨⟨?_, by simpa using hv⟩, ⟨by simp, hx⟩, h.2⟩
      cases lo <;> simp_all
    · by_cases h2 : k = a
      · subst h2
        simp only [insertCell, lt_irrefl, if_false, if_true, cellsAbove, Bool.and_eq_true]
        exact ⟨⟨h.1.1, by simpa using hv⟩, h.2⟩
      · simp only [insertCell, h1, h2, if_false, cellsAbove, Bool.and_eq_true]
        refine ⟨h.1, ih ?_ h.2⟩
        rintro c hc
        cases hc
        omega

theorem cellsWf_writeCell (h : cellsWf fill m = true) : cellsWf fill (writeCell fill m a v) = true := by
  unfold writeCell cellsWf at *
  split
  · exact cellsAbove_dropCell h
  · rename_i hv
    exact cellsAbove_insertCell (by simp) hv h

/-- Writing a general-purpose cell keeps the canonical form. -/
theorem memory_wf_write {g : Memory} (i : Nat) (x : Byte) (h : g.wf = true) : (g.write i x).wf = true :=
  cellsWf_writeCell h

/-- Loading a word into program memory keeps the canonical form. -/
theorem progMem_wf_write {k : Config} {p : ProgMem} (i : ProgAddr) (w : InstrWord) (h : p.wf k = true) :
    ProgMem.wf k (progWrite k p i w) = true :=
  cellsWf_writeCell h

/-- Memory after reset has the canonical form. -/
theorem reset_memory_wf : State.reset.gpr.wf = true := rfl

/-- Program memory after reset has the canonical form. -/
theorem reset_prog_wf : ProgMem.wf State.reset.cfg State.reset.prog = true := rfl

/-- A word that was loaded is the word a fetch at its address reads. -/
theorem progRead_progWrite_same (k : Config) (p : ProgMem) (i : ProgAddr) (w : InstrWord) :
    progRead k (progWrite k p i w) i = some w := by
  have h := cellAt_writeCell_same (fill := k.erased) (m := p) (a := i.toNat % k.progWords) (v := w)
  unfold progRead progWrite
  cases hc : cellAt (writeCell k.erased p (i.toNat % k.progWords) w) (i.toNat % k.progWords) <;> simp_all

end Sys2Proof.Machine
end

