-- ==== Sys2Proof/Laws/State.lean ====
section
/-! SUPPORT. One lemma per field per named update of the state, true by rfl, so that no proof unfolds a record
update. -/

namespace Sys2Proof.Machine

section
variable (s : State)

/-! `setW`. -/

@[simp] theorem setW_w (v : Byte) : (setW v s).w = v := rfl
@[simp] theorem setW_pc (v : Byte) : (setW v s).pc = s.pc := rfl
@[simp] theorem setW_stack (v : Byte) : (setW v s).stack = s.stack := rfl
@[simp] theorem setW_c (v : Byte) : (setW v s).c = s.c := rfl
@[simp] theorem setW_dc (v : Byte) : (setW v s).dc = s.dc := rfl
@[simp] theorem setW_z (v : Byte) : (setW v s).z = s.z := rfl
@[simp] theorem setW_toBit (v : Byte) : (setW v s).toBit = s.toBit := rfl
@[simp] theorem setW_pdBit (v : Byte) : (setW v s).pdBit = s.pdBit := rfl
@[simp] theorem setW_gie (v : Byte) : (setW v s).gie = s.gie := rfl
@[simp] theorem setW_intconLo (v : Byte) : (setW v s).intconLo = s.intconLo := rfl
@[simp] theorem setW_pclath (v : Byte) : (setW v s).pclath = s.pclath := rfl
@[simp] theorem setW_statusOther (v : Byte) : (setW v s).statusOther = s.statusOther := rfl
@[simp] theorem setW_option (v : Byte) : (setW v s).option = s.option := rfl
@[simp] theorem setW_tris (v : Byte) : (setW v s).tris = s.tris := rfl
@[simp] theorem setW_latch (v : Byte) : (setW v s).latch = s.latch := rfl
@[simp] theorem setW_tmr0 (v : Byte) : (setW v s).tmr0 = s.tmr0 := rfl
@[simp] theorem setW_fsr (v : Byte) : (setW v s).fsr = s.fsr := rfl
@[simp] theorem setW_gpr (v : Byte) : (setW v s).gpr = s.gpr := rfl
@[simp] theorem setW_wdt (v : Byte) : (setW v s).wdt = s.wdt := rfl
@[simp] theorem setW_psc (v : Byte) : (setW v s).psc = s.psc := rfl
@[simp] theorem setW_asleep (v : Byte) : (setW v s).asleep = s.asleep := rfl
@[simp] theorem setW_stale (v : Byte) : (setW v s).stale = s.stale := rfl
@[simp] theorem setW_stackPtr (v : Byte) : (setW v s).stackPtr = s.stackPtr := rfl
@[simp] theorem setW_justWoke (v : Byte) : (setW v s).justWoke = s.justWoke := rfl
@[simp] theorem setW_eeif (v : Byte) : (setW v s).eeif = s.eeif := rfl
@[simp] theorem setW_eeifMark (v : Byte) : (setW v s).eeifMark = s.eeifMark := rfl
@[simp] theorem setW_events (v : Byte) : (setW v s).events = s.events := rfl
@[simp] theorem setW_cycles (v : Byte) : (setW v s).cycles = s.cycles := rfl
@[simp] theorem setW_prog (v : Byte) : (setW v s).prog = s.prog := rfl
@[simp] theorem setW_cfg (v : Byte) : (setW v s).cfg = s.cfg := rfl
@[simp] theorem setW_env (v : Byte) : (setW v s).env = s.env := rfl
@[simp] theorem setW_overdrive (v : Byte) : (setW v s).overdrive = s.overdrive := rfl
@[simp] theorem setW_draws (v : Byte) : (setW v s).draws = s.draws := rfl

/-! `tick`. -/

@[simp] theorem tick_w (n : Nat) : (tick n s).w = s.w := rfl
@[simp] theorem tick_pc (n : Nat) : (tick n s).pc = s.pc := rfl
@[simp] theorem tick_stack (n : Nat) : (tick n s).stack = s.stack := rfl
@[simp] theorem tick_c (n : Nat) : (tick n s).c = s.c := rfl
@[simp] theorem tick_dc (n : Nat) : (tick n s).dc = s.dc := rfl
@[simp] theorem tick_z (n : Nat) : (tick n s).z = s.z := rfl
@[simp] theorem tick_toBit (n : Nat) : (tick n s).toBit = s.toBit := rfl
@[simp] theorem tick_pdBit (n : Nat) : (tick n s).pdBit = s.pdBit := rfl
@[simp] theorem tick_gie (n : Nat) : (tick n s).gie = s.gie := rfl
@[simp] theorem tick_intconLo (n : Nat) : (tick n s).intconLo = s.intconLo := rfl
@[simp] theorem tick_pclath (n : Nat) : (tick n s).pclath = s.pclath := rfl
@[simp] theorem tick_statusOther (n : Nat) : (tick n s).statusOther = s.statusOther := rfl
@[simp] theorem tick_option (n : Nat) : (tick n s).option = s.option := rfl
@[simp] theorem tick_tris (n : Nat) : (tick n s).tris = s.tris := rfl
@[simp] theorem tick_latch (n : Nat) : (tick n s).latch = s.latch := rfl
@[simp] theorem tick_tmr0 (n : Nat) : (tick n s).tmr0 = s.tmr0 := rfl
@[simp] theorem tick_fsr (n : Nat) : (tick n s).fsr = s.fsr := rfl
@[simp] theorem tick_gpr (n : Nat) : (tick n s).gpr = s.gpr := rfl
@[simp] theorem tick_wdt (n : Nat) : (tick n s).wdt = s.wdt := rfl
@[simp] theorem tick_psc (n : Nat) : (tick n s).psc = s.psc := rfl
@[simp] theorem tick_asleep (n : Nat) : (tick n s).asleep = s.asleep := rfl
@[simp] theorem tick_stale (n : Nat) : (tick n s).stale = s.stale := rfl
@[simp] theorem tick_stackPtr (n : Nat) : (tick n s).stackPtr = s.stackPtr := rfl
@[simp] theorem tick_justWoke (n : Nat) : (tick n s).justWoke = s.justWoke := rfl
@[simp] theorem tick_eeif (n : Nat) : (tick n s).eeif = s.eeif := rfl
@[simp] theorem tick_eeifMark (n : Nat) : (tick n s).eeifMark = s.eeifMark := rfl
@[simp] theorem tick_events (n : Nat) : (tick n s).events = s.events := rfl
@[simp] theorem tick_cycles (n : Nat) : (tick n s).cycles = s.cycles + n := rfl
@[simp] theorem tick_prog (n : Nat) : (tick n s).prog = s.prog := rfl
@[simp] theorem tick_cfg (n : Nat) : (tick n s).cfg = s.cfg := rfl
@[simp] theorem tick_env (n : Nat) : (tick n s).env = s.env := rfl
@[simp] theorem tick_overdrive (n : Nat) : (tick n s).overdrive = s.overdrive := rfl
@[simp] theorem tick_draws (n : Nat) : (tick n s).draws = s.draws := rfl

/-! `setPc`. -/

@[simp] theorem setPc_w (a : ProgAddr) : (setPc a s).w = s.w := rfl
@[simp] theorem setPc_pc (a : ProgAddr) : (setPc a s).pc = a := rfl
@[simp] theorem setPc_stack (a : ProgAddr) : (setPc a s).stack = s.stack := rfl
@[simp] theorem setPc_c (a : ProgAddr) : (setPc a s).c = s.c := rfl
@[simp] theorem setPc_dc (a : ProgAddr) : (setPc a s).dc = s.dc := rfl
@[simp] theorem setPc_z (a : ProgAddr) : (setPc a s).z = s.z := rfl
@[simp] theorem setPc_toBit (a : ProgAddr) : (setPc a s).toBit = s.toBit := rfl
@[simp] theorem setPc_pdBit (a : ProgAddr) : (setPc a s).pdBit = s.pdBit := rfl
@[simp] theorem setPc_gie (a : ProgAddr) : (setPc a s).gie = s.gie := rfl
@[simp] theorem setPc_intconLo (a : ProgAddr) : (setPc a s).intconLo = s.intconLo := rfl
@[simp] theorem setPc_pclath (a : ProgAddr) : (setPc a s).pclath = s.pclath := rfl
@[simp] theorem setPc_statusOther (a : ProgAddr) : (setPc a s).statusOther = s.statusOther := rfl
@[simp] theorem setPc_option (a : ProgAddr) : (setPc a s).option = s.option := rfl
@[simp] theorem setPc_tris (a : ProgAddr) : (setPc a s).tris = s.tris := rfl
@[simp] theorem setPc_latch (a : ProgAddr) : (setPc a s).latch = s.latch := rfl
@[simp] theorem setPc_tmr0 (a : ProgAddr) : (setPc a s).tmr0 = s.tmr0 := rfl
@[simp] theorem setPc_fsr (a : ProgAddr) : (setPc a s).fsr = s.fsr := rfl
@[simp] theorem setPc_gpr (a : ProgAddr) : (setPc a s).gpr = s.gpr := rfl
@[simp] theorem setPc_wdt (a : ProgAddr) : (setPc a s).wdt = s.wdt := rfl
@[simp] theorem setPc_psc (a : ProgAddr) : (setPc a s).psc = s.psc := rfl
@[simp] theorem setPc_asleep (a : ProgAddr) : (setPc a s).asleep = s.asleep := rfl
@[simp] theorem setPc_stale (a : ProgAddr) : (setPc a s).stale = s.stale := rfl
@[simp] theorem setPc_stackPtr (a : ProgAddr) : (setPc a s).stackPtr = s.stackPtr := rfl
@[simp] theorem setPc_justWoke (a : ProgAddr) : (setPc a s).justWoke = s.justWoke := rfl
@[simp] theorem setPc_eeif (a : ProgAddr) : (setPc a s).eeif = s.eeif := rfl
@[simp] theorem setPc_eeifMark (a : ProgAddr) : (setPc a s).eeifMark = s.eeifMark := rfl
@[simp] theorem setPc_events (a : ProgAddr) : (setPc a s).events = s.events := rfl
@[simp] theorem setPc_cycles (a : ProgAddr) : (setPc a s).cycles = s.cycles := rfl
@[simp] theorem setPc_prog (a : ProgAddr) : (setPc a s).prog = s.prog := rfl
@[simp] theorem setPc_cfg (a : ProgAddr) : (setPc a s).cfg = s.cfg := rfl
@[simp] theorem setPc_env (a : ProgAddr) : (setPc a s).env = s.env := rfl
@[simp] theorem setPc_overdrive (a : ProgAddr) : (setPc a s).overdrive = s.overdrive := rfl
@[simp] theorem setPc_draws (a : ProgAddr) : (setPc a s).draws = s.draws := rfl

/-! `nextInstr`. -/

@[simp] theorem nextInstr_w : (nextInstr s).w = s.w := rfl
@[simp] theorem nextInstr_pc : (nextInstr s).pc = s.pc + 1 := rfl
@[simp] theorem nextInstr_stack : (nextInstr s).stack = s.stack := rfl
@[simp] theorem nextInstr_c : (nextInstr s).c = s.c := rfl
@[simp] theorem nextInstr_dc : (nextInstr s).dc = s.dc := rfl
@[simp] theorem nextInstr_z : (nextInstr s).z = s.z := rfl
@[simp] theorem nextInstr_toBit : (nextInstr s).toBit = s.toBit := rfl
@[simp] theorem nextInstr_pdBit : (nextInstr s).pdBit = s.pdBit := rfl
@[simp] theorem nextInstr_gie : (nextInstr s).gie = s.gie := rfl
@[simp] theorem nextInstr_intconLo : (nextInstr s).intconLo = s.intconLo := rfl
@[simp] theorem nextInstr_pclath : (nextInstr s).pclath = s.pclath := rfl
@[simp] theorem nextInstr_statusOther : (nextInstr s).statusOther = s.statusOther := rfl
@[simp] theorem nextInstr_option : (nextInstr s).option = s.option := rfl
@[simp] theorem nextInstr_tris : (nextInstr s).tris = s.tris := rfl
@[simp] theorem nextInstr_latch : (nextInstr s).latch = s.latch := rfl
@[simp] theorem nextInstr_tmr0 : (nextInstr s).tmr0 = s.tmr0 := rfl
@[simp] theorem nextInstr_fsr : (nextInstr s).fsr = s.fsr := rfl
@[simp] theorem nextInstr_gpr : (nextInstr s).gpr = s.gpr := rfl
@[simp] theorem nextInstr_wdt : (nextInstr s).wdt = s.wdt := rfl
@[simp] theorem nextInstr_psc : (nextInstr s).psc = s.psc := rfl
@[simp] theorem nextInstr_asleep : (nextInstr s).asleep = s.asleep := rfl
@[simp] theorem nextInstr_stale : (nextInstr s).stale = s.stale := rfl
@[simp] theorem nextInstr_stackPtr : (nextInstr s).stackPtr = s.stackPtr := rfl
@[simp] theorem nextInstr_justWoke : (nextInstr s).justWoke = s.justWoke := rfl
@[simp] theorem nextInstr_eeif : (nextInstr s).eeif = s.eeif := rfl
@[simp] theorem nextInstr_eeifMark : (nextInstr s).eeifMark = s.eeifMark := rfl
@[simp] theorem nextInstr_events : (nextInstr s).events = s.events := rfl
@[simp] theorem nextInstr_cycles : (nextInstr s).cycles = s.cycles + 1 := rfl
@[simp] theorem nextInstr_prog : (nextInstr s).prog = s.prog := rfl
@[simp] theorem nextInstr_cfg : (nextInstr s).cfg = s.cfg := rfl
@[simp] theorem nextInstr_env : (nextInstr s).env = s.env := rfl
@[simp] theorem nextInstr_overdrive : (nextInstr s).overdrive = s.overdrive := rfl
@[simp] theorem nextInstr_draws : (nextInstr s).draws = s.draws := rfl

/-! `skipInstr`. -/

@[simp] theorem skipInstr_w : (skipInstr s).w = s.w := rfl
@[simp] theorem skipInstr_pc : (skipInstr s).pc = s.pc + 2 := rfl
@[simp] theorem skipInstr_stack : (skipInstr s).stack = s.stack := rfl
@[simp] theorem skipInstr_c : (skipInstr s).c = s.c := rfl
@[simp] theorem skipInstr_dc : (skipInstr s).dc = s.dc := rfl
@[simp] theorem skipInstr_z : (skipInstr s).z = s.z := rfl
@[simp] theorem skipInstr_toBit : (skipInstr s).toBit = s.toBit := rfl
@[simp] theorem skipInstr_pdBit : (skipInstr s).pdBit = s.pdBit := rfl
@[simp] theorem skipInstr_gie : (skipInstr s).gie = s.gie := rfl
@[simp] theorem skipInstr_intconLo : (skipInstr s).intconLo = s.intconLo := rfl
@[simp] theorem skipInstr_pclath : (skipInstr s).pclath = s.pclath := rfl
@[simp] theorem skipInstr_statusOther : (skipInstr s).statusOther = s.statusOther := rfl
@[simp] theorem skipInstr_option : (skipInstr s).option = s.option := rfl
@[simp] theorem skipInstr_tris : (skipInstr s).tris = s.tris := rfl
@[simp] theorem skipInstr_latch : (skipInstr s).latch = s.latch := rfl
@[simp] theorem skipInstr_tmr0 : (skipInstr s).tmr0 = s.tmr0 := rfl
@[simp] theorem skipInstr_fsr : (skipInstr s).fsr = s.fsr := rfl
@[simp] theorem skipInstr_gpr : (skipInstr s).gpr = s.gpr := rfl
@[simp] theorem skipInstr_wdt : (skipInstr s).wdt = s.wdt := rfl
@[simp] theorem skipInstr_psc : (skipInstr s).psc = s.psc := rfl
@[simp] theorem skipInstr_asleep : (skipInstr s).asleep = s.asleep := rfl
@[simp] theorem skipInstr_stale : (skipInstr s).stale = s.stale := rfl
@[simp] theorem skipInstr_stackPtr : (skipInstr s).stackPtr = s.stackPtr := rfl
@[simp] theorem skipInstr_justWoke : (skipInstr s).justWoke = s.justWoke := rfl
@[simp] theorem skipInstr_eeif : (skipInstr s).eeif = s.eeif := rfl
@[simp] theorem skipInstr_eeifMark : (skipInstr s).eeifMark = s.eeifMark := rfl
@[simp] theorem skipInstr_events : (skipInstr s).events = s.events := rfl
@[simp] theorem skipInstr_cycles : (skipInstr s).cycles = s.cycles + 2 := rfl
@[simp] theorem skipInstr_prog : (skipInstr s).prog = s.prog := rfl
@[simp] theorem skipInstr_cfg : (skipInstr s).cfg = s.cfg := rfl
@[simp] theorem skipInstr_env : (skipInstr s).env = s.env := rfl
@[simp] theorem skipInstr_overdrive : (skipInstr s).overdrive = s.overdrive := rfl
@[simp] theorem skipInstr_draws : (skipInstr s).draws = s.draws := rfl

/-! `jumpTo`. -/

@[simp] theorem jumpTo_w (a : ProgAddr) : (jumpTo a s).w = s.w := rfl
@[simp] theorem jumpTo_pc (a : ProgAddr) : (jumpTo a s).pc = a := rfl
@[simp] theorem jumpTo_stack (a : ProgAddr) : (jumpTo a s).stack = s.stack := rfl
@[simp] theorem jumpTo_c (a : ProgAddr) : (jumpTo a s).c = s.c := rfl
@[simp] theorem jumpTo_dc (a : ProgAddr) : (jumpTo a s).dc = s.dc := rfl
@[simp] theorem jumpTo_z (a : ProgAddr) : (jumpTo a s).z = s.z := rfl
@[simp] theorem jumpTo_toBit (a : ProgAddr) : (jumpTo a s).toBit = s.toBit := rfl
@[simp] theorem jumpTo_pdBit (a : ProgAddr) : (jumpTo a s).pdBit = s.pdBit := rfl
@[simp] theorem jumpTo_gie (a : ProgAddr) : (jumpTo a s).gie = s.gie := rfl
@[simp] theorem jumpTo_intconLo (a : ProgAddr) : (jumpTo a s).intconLo = s.intconLo := rfl
@[simp] theorem jumpTo_pclath (a : ProgAddr) : (jumpTo a s).pclath = s.pclath := rfl
@[simp] theorem jumpTo_statusOther (a : ProgAddr) : (jumpTo a s).statusOther = s.statusOther := rfl
@[simp] theorem jumpTo_option (a : ProgAddr) : (jumpTo a s).option = s.option := rfl
@[simp] theorem jumpTo_tris (a : ProgAddr) : (jumpTo a s).tris = s.tris := rfl
@[simp] theorem jumpTo_latch (a : ProgAddr) : (jumpTo a s).latch = s.latch := rfl
@[simp] theorem jumpTo_tmr0 (a : ProgAddr) : (jumpTo a s).tmr0 = s.tmr0 := rfl
@[simp] theorem jumpTo_fsr (a : ProgAddr) : (jumpTo a s).fsr = s.fsr := rfl
@[simp] theorem jumpTo_gpr (a : ProgAddr) : (jumpTo a s).gpr = s.gpr := rfl
@[simp] theorem jumpTo_wdt (a : ProgAddr) : (jumpTo a s).wdt = s.wdt := rfl
@[simp] theorem jumpTo_psc (a : ProgAddr) : (jumpTo a s).psc = s.psc := rfl
@[simp] theorem jumpTo_asleep (a : ProgAddr) : (jumpTo a s).asleep = s.asleep := rfl
@[simp] theorem jumpTo_stale (a : ProgAddr) : (jumpTo a s).stale = s.stale := rfl
@[simp] theorem jumpTo_stackPtr (a : ProgAddr) : (jumpTo a s).stackPtr = s.stackPtr := rfl
@[simp] theorem jumpTo_justWoke (a : ProgAddr) : (jumpTo a s).justWoke = s.justWoke := rfl
@[simp] theorem jumpTo_eeif (a : ProgAddr) : (jumpTo a s).eeif = s.eeif := rfl
@[simp] theorem jumpTo_eeifMark (a : ProgAddr) : (jumpTo a s).eeifMark = s.eeifMark := rfl
@[simp] theorem jumpTo_events (a : ProgAddr) : (jumpTo a s).events = s.events := rfl
@[simp] theorem jumpTo_cycles (a : ProgAddr) : (jumpTo a s).cycles = s.cycles + 2 := rfl
@[simp] theorem jumpTo_prog (a : ProgAddr) : (jumpTo a s).prog = s.prog := rfl
@[simp] theorem jumpTo_cfg (a : ProgAddr) : (jumpTo a s).cfg = s.cfg := rfl
@[simp] theorem jumpTo_env (a : ProgAddr) : (jumpTo a s).env = s.env := rfl
@[simp] theorem jumpTo_overdrive (a : ProgAddr) : (jumpTo a s).overdrive = s.overdrive := rfl
@[simp] theorem jumpTo_draws (a : ProgAddr) : (jumpTo a s).draws = s.draws := rfl

/-! `setFlags`. -/

@[simp] theorem setFlags_w (o : AluOut) : (setFlags o s).w = s.w := rfl
@[simp] theorem setFlags_pc (o : AluOut) : (setFlags o s).pc = s.pc := rfl
@[simp] theorem setFlags_stack (o : AluOut) : (setFlags o s).stack = s.stack := rfl
@[simp] theorem setFlags_c (o : AluOut) : (setFlags o s).c = o.c.getD s.c := rfl
@[simp] theorem setFlags_dc (o : AluOut) : (setFlags o s).dc = o.dc.getD s.dc := rfl
@[simp] theorem setFlags_z (o : AluOut) : (setFlags o s).z = o.z.getD s.z := rfl
@[simp] theorem setFlags_toBit (o : AluOut) : (setFlags o s).toBit = s.toBit := rfl
@[simp] theorem setFlags_pdBit (o : AluOut) : (setFlags o s).pdBit = s.pdBit := rfl
@[simp] theorem setFlags_gie (o : AluOut) : (setFlags o s).gie = s.gie := rfl
@[simp] theorem setFlags_intconLo (o : AluOut) : (setFlags o s).intconLo = s.intconLo := rfl
@[simp] theorem setFlags_pclath (o : AluOut) : (setFlags o s).pclath = s.pclath := rfl
@[simp] theorem setFlags_statusOther (o : AluOut) : (setFlags o s).statusOther = s.statusOther := rfl
@[simp] theorem setFlags_option (o : AluOut) : (setFlags o s).option = s.option := rfl
@[simp] theorem setFlags_tris (o : AluOut) : (setFlags o s).tris = s.tris := rfl
@[simp] theorem setFlags_latch (o : AluOut) : (setFlags o s).latch = s.latch := rfl
@[simp] theorem setFlags_tmr0 (o : AluOut) : (setFlags o s).tmr0 = s.tmr0 := rfl
@[simp] theorem setFlags_fsr (o : AluOut) : (setFlags o s).fsr = s.fsr := rfl
@[simp] theorem setFlags_gpr (o : AluOut) : (setFlags o s).gpr = s.gpr := rfl
@[simp] theorem setFlags_wdt (o : AluOut) : (setFlags o s).wdt = s.wdt := rfl
@[simp] theorem setFlags_psc (o : AluOut) : (setFlags o s).psc = s.psc := rfl
@[simp] theorem setFlags_asleep (o : AluOut) : (setFlags o s).asleep = s.asleep := rfl
@[simp] theorem setFlags_stale (o : AluOut) : (setFlags o s).stale = s.stale := rfl
@[simp] theorem setFlags_stackPtr (o : AluOut) : (setFlags o s).stackPtr = s.stackPtr := rfl
@[simp] theorem setFlags_justWoke (o : AluOut) : (setFlags o s).justWoke = s.justWoke := rfl
@[simp] theorem setFlags_eeif (o : AluOut) : (setFlags o s).eeif = s.eeif := rfl
@[simp] theorem setFlags_eeifMark (o : AluOut) : (setFlags o s).eeifMark = s.eeifMark := rfl
@[simp] theorem setFlags_events (o : AluOut) : (setFlags o s).events = s.events := rfl
@[simp] theorem setFlags_cycles (o : AluOut) : (setFlags o s).cycles = s.cycles := rfl
@[simp] theorem setFlags_prog (o : AluOut) : (setFlags o s).prog = s.prog := rfl
@[simp] theorem setFlags_cfg (o : AluOut) : (setFlags o s).cfg = s.cfg := rfl
@[simp] theorem setFlags_env (o : AluOut) : (setFlags o s).env = s.env := rfl
@[simp] theorem setFlags_overdrive (o : AluOut) : (setFlags o s).overdrive = s.overdrive := rfl
@[simp] theorem setFlags_draws (o : AluOut) : (setFlags o s).draws = s.draws := rfl

/-! `takeDraw`. -/

@[simp] theorem takeDraw_w : (takeDraw s).w = s.w := rfl
@[simp] theorem takeDraw_pc : (takeDraw s).pc = s.pc := rfl
@[simp] theorem takeDraw_stack : (takeDraw s).stack = s.stack := rfl
@[simp] theorem takeDraw_c : (takeDraw s).c = s.c := rfl
@[simp] theorem takeDraw_dc : (takeDraw s).dc = s.dc := rfl
@[simp] theorem takeDraw_z : (takeDraw s).z = s.z := rfl
@[simp] theorem takeDraw_toBit : (takeDraw s).toBit = s.toBit := rfl
@[simp] theorem takeDraw_pdBit : (takeDraw s).pdBit = s.pdBit := rfl
@[simp] theorem takeDraw_gie : (takeDraw s).gie = s.gie := rfl
@[simp] theorem takeDraw_intconLo : (takeDraw s).intconLo = s.intconLo := rfl
@[simp] theorem takeDraw_pclath : (takeDraw s).pclath = s.pclath := rfl
@[simp] theorem takeDraw_statusOther : (takeDraw s).statusOther = s.statusOther := rfl
@[simp] theorem takeDraw_option : (takeDraw s).option = s.option := rfl
@[simp] theorem takeDraw_tris : (takeDraw s).tris = s.tris := rfl
@[simp] theorem takeDraw_latch : (takeDraw s).latch = s.latch := rfl
@[simp] theorem takeDraw_tmr0 : (takeDraw s).tmr0 = s.tmr0 := rfl
@[simp] theorem takeDraw_fsr : (takeDraw s).fsr = s.fsr := rfl
@[simp] theorem takeDraw_gpr : (takeDraw s).gpr = s.gpr := rfl
@[simp] theorem takeDraw_wdt : (takeDraw s).wdt = s.wdt := rfl
@[simp] theorem takeDraw_psc : (takeDraw s).psc = s.psc := rfl
@[simp] theorem takeDraw_asleep : (takeDraw s).asleep = s.asleep := rfl
@[simp] theorem takeDraw_stale : (takeDraw s).stale = s.stale := rfl
@[simp] theorem takeDraw_stackPtr : (takeDraw s).stackPtr = s.stackPtr := rfl
@[simp] theorem takeDraw_justWoke : (takeDraw s).justWoke = s.justWoke := rfl
@[simp] theorem takeDraw_eeif : (takeDraw s).eeif = s.eeif := rfl
@[simp] theorem takeDraw_eeifMark : (takeDraw s).eeifMark = s.eeifMark := rfl
@[simp] theorem takeDraw_events : (takeDraw s).events = s.events := rfl
@[simp] theorem takeDraw_cycles : (takeDraw s).cycles = s.cycles := rfl
@[simp] theorem takeDraw_prog : (takeDraw s).prog = s.prog := rfl
@[simp] theorem takeDraw_cfg : (takeDraw s).cfg = s.cfg := rfl
@[simp] theorem takeDraw_env : (takeDraw s).env = s.env := rfl
@[simp] theorem takeDraw_overdrive : (takeDraw s).overdrive = s.overdrive := rfl
@[simp] theorem takeDraw_draws : (takeDraw s).draws = s.draws + 1 := rfl

/-! `setPowerBits`. -/

@[simp] theorem setPowerBits_w (a b : Bool) : (setPowerBits a b s).w = s.w := rfl
@[simp] theorem setPowerBits_pc (a b : Bool) : (setPowerBits a b s).pc = s.pc := rfl
@[simp] theorem setPowerBits_stack (a b : Bool) : (setPowerBits a b s).stack = s.stack := rfl
@[simp] theorem setPowerBits_c (a b : Bool) : (setPowerBits a b s).c = s.c := rfl
@[simp] theorem setPowerBits_dc (a b : Bool) : (setPowerBits a b s).dc = s.dc := rfl
@[simp] theorem setPowerBits_z (a b : Bool) : (setPowerBits a b s).z = s.z := rfl
@[simp] theorem setPowerBits_toBit (a b : Bool) : (setPowerBits a b s).toBit = a := rfl
@[simp] theorem setPowerBits_pdBit (a b : Bool) : (setPowerBits a b s).pdBit = b := rfl
@[simp] theorem setPowerBits_gie (a b : Bool) : (setPowerBits a b s).gie = s.gie := rfl
@[simp] theorem setPowerBits_intconLo (a b : Bool) : (setPowerBits a b s).intconLo = s.intconLo := rfl
@[simp] theorem setPowerBits_pclath (a b : Bool) : (setPowerBits a b s).pclath = s.pclath := rfl
@[simp] theorem setPowerBits_statusOther (a b : Bool) : (setPowerBits a b s).statusOther = s.statusOther := rfl
@[simp] theorem setPowerBits_option (a b : Bool) : (setPowerBits a b s).option = s.option := rfl
@[simp] theorem setPowerBits_tris (a b : Bool) : (setPowerBits a b s).tris = s.tris := rfl
@[simp] theorem setPowerBits_latch (a b : Bool) : (setPowerBits a b s).latch = s.latch := rfl
@[simp] theorem setPowerBits_tmr0 (a b : Bool) : (setPowerBits a b s).tmr0 = s.tmr0 := rfl
@[simp] theorem setPowerBits_fsr (a b : Bool) : (setPowerBits a b s).fsr = s.fsr := rfl
@[simp] theorem setPowerBits_gpr (a b : Bool) : (setPowerBits a b s).gpr = s.gpr := rfl
@[simp] theorem setPowerBits_wdt (a b : Bool) : (setPowerBits a b s).wdt = s.wdt := rfl
@[simp] theorem setPowerBits_psc (a b : Bool) : (setPowerBits a b s).psc = s.psc := rfl
@[simp] theorem setPowerBits_asleep (a b : Bool) : (setPowerBits a b s).asleep = s.asleep := rfl
@[simp] theorem setPowerBits_stale (a b : Bool) : (setPowerBits a b s).stale = s.stale := rfl
@[simp] theorem setPowerBits_stackPtr (a b : Bool) : (setPowerBits a b s).stackPtr = s.stackPtr := rfl
@[simp] theorem setPowerBits_justWoke (a b : Bool) : (setPowerBits a b s).justWoke = s.justWoke := rfl
@[simp] theorem setPowerBits_eeif (a b : Bool) : (setPowerBits a b s).eeif = s.eeif := rfl
@[simp] theorem setPowerBits_eeifMark (a b : Bool) : (setPowerBits a b s).eeifMark = s.eeifMark := rfl
@[simp] theorem setPowerBits_events (a b : Bool) : (setPowerBits a b s).events = s.events := rfl
@[simp] theorem setPowerBits_cycles (a b : Bool) : (setPowerBits a b s).cycles = s.cycles := rfl
@[simp] theorem setPowerBits_prog (a b : Bool) : (setPowerBits a b s).prog = s.prog := rfl
@[simp] theorem setPowerBits_cfg (a b : Bool) : (setPowerBits a b s).cfg = s.cfg := rfl
@[simp] theorem setPowerBits_env (a b : Bool) : (setPowerBits a b s).env = s.env := rfl
@[simp] theorem setPowerBits_overdrive (a b : Bool) : (setPowerBits a b s).overdrive = s.overdrive := rfl
@[simp] theorem setPowerBits_draws (a b : Bool) : (setPowerBits a b s).draws = s.draws := rfl

/-! `clearWdt`. -/

@[simp] theorem clearWdt_w : (clearWdt s).w = s.w := rfl
@[simp] theorem clearWdt_pc : (clearWdt s).pc = s.pc := rfl
@[simp] theorem clearWdt_stack : (clearWdt s).stack = s.stack := rfl
@[simp] theorem clearWdt_c : (clearWdt s).c = s.c := rfl
@[simp] theorem clearWdt_dc : (clearWdt s).dc = s.dc := rfl
@[simp] theorem clearWdt_z : (clearWdt s).z = s.z := rfl
@[simp] theorem clearWdt_toBit : (clearWdt s).toBit = s.toBit := rfl
@[simp] theorem clearWdt_pdBit : (clearWdt s).pdBit = s.pdBit := rfl
@[simp] theorem clearWdt_gie : (clearWdt s).gie = s.gie := rfl
@[simp] theorem clearWdt_intconLo : (clearWdt s).intconLo = s.intconLo := rfl
@[simp] theorem clearWdt_pclath : (clearWdt s).pclath = s.pclath := rfl
@[simp] theorem clearWdt_statusOther : (clearWdt s).statusOther = s.statusOther := rfl
@[simp] theorem clearWdt_option : (clearWdt s).option = s.option := rfl
@[simp] theorem clearWdt_tris : (clearWdt s).tris = s.tris := rfl
@[simp] theorem clearWdt_latch : (clearWdt s).latch = s.latch := rfl
@[simp] theorem clearWdt_tmr0 : (clearWdt s).tmr0 = s.tmr0 := rfl
@[simp] theorem clearWdt_fsr : (clearWdt s).fsr = s.fsr := rfl
@[simp] theorem clearWdt_gpr : (clearWdt s).gpr = s.gpr := rfl
@[simp] theorem clearWdt_wdt : (clearWdt s).wdt = 0 := rfl
@[simp] theorem clearWdt_psc : (clearWdt s).psc = if psaTmr0 s then s.psc else 0 := rfl
@[simp] theorem clearWdt_asleep : (clearWdt s).asleep = s.asleep := rfl
@[simp] theorem clearWdt_stale : (clearWdt s).stale = s.stale := rfl
@[simp] theorem clearWdt_stackPtr : (clearWdt s).stackPtr = s.stackPtr := rfl
@[simp] theorem clearWdt_justWoke : (clearWdt s).justWoke = s.justWoke := rfl
@[simp] theorem clearWdt_eeif : (clearWdt s).eeif = s.eeif := rfl
@[simp] theorem clearWdt_eeifMark : (clearWdt s).eeifMark = s.eeifMark := rfl
@[simp] theorem clearWdt_events : (clearWdt s).events = s.events := rfl
@[simp] theorem clearWdt_cycles : (clearWdt s).cycles = s.cycles := rfl
@[simp] theorem clearWdt_prog : (clearWdt s).prog = s.prog := rfl
@[simp] theorem clearWdt_cfg : (clearWdt s).cfg = s.cfg := rfl
@[simp] theorem clearWdt_env : (clearWdt s).env = s.env := rfl
@[simp] theorem clearWdt_overdrive : (clearWdt s).overdrive = s.overdrive := rfl
@[simp] theorem clearWdt_draws : (clearWdt s).draws = s.draws := rfl

/-! `wake`. -/

@[simp] theorem wake_w : (wake s).w = s.w := rfl
@[simp] theorem wake_pc : (wake s).pc = s.pc := rfl
@[simp] theorem wake_stack : (wake s).stack = s.stack := rfl
@[simp] theorem wake_c : (wake s).c = s.c := rfl
@[simp] theorem wake_dc : (wake s).dc = s.dc := rfl
@[simp] theorem wake_z : (wake s).z = s.z := rfl
@[simp] theorem wake_toBit : (wake s).toBit = s.toBit := rfl
@[simp] theorem wake_pdBit : (wake s).pdBit = s.pdBit := rfl
@[simp] theorem wake_gie : (wake s).gie = s.gie := rfl
@[simp] theorem wake_intconLo : (wake s).intconLo = s.intconLo := rfl
@[simp] theorem wake_pclath : (wake s).pclath = s.pclath := rfl
@[simp] theorem wake_statusOther : (wake s).statusOther = s.statusOther := rfl
@[simp] theorem wake_option : (wake s).option = s.option := rfl
@[simp] theorem wake_tris : (wake s).tris = s.tris := rfl
@[simp] theorem wake_latch : (wake s).latch = s.latch := rfl
@[simp] theorem wake_tmr0 : (wake s).tmr0 = s.tmr0 := rfl
@[simp] theorem wake_fsr : (wake s).fsr = s.fsr := rfl
@[simp] theorem wake_gpr : (wake s).gpr = s.gpr := rfl
@[simp] theorem wake_wdt : (wake s).wdt = s.wdt := rfl
@[simp] theorem wake_psc : (wake s).psc = s.psc := rfl
@[simp] theorem wake_asleep : (wake s).asleep = false := rfl
@[simp] theorem wake_stale : (wake s).stale = s.stale := rfl
@[simp] theorem wake_stackPtr : (wake s).stackPtr = s.stackPtr := rfl
@[simp] theorem wake_justWoke : (wake s).justWoke = true := rfl
@[simp] theorem wake_eeif : (wake s).eeif = s.eeif := rfl
@[simp] theorem wake_eeifMark : (wake s).eeifMark = s.eeifMark := rfl
@[simp] theorem wake_events : (wake s).events = s.events := rfl
@[simp] theorem wake_cycles : (wake s).cycles = s.cycles := rfl
@[simp] theorem wake_prog : (wake s).prog = s.prog := rfl
@[simp] theorem wake_cfg : (wake s).cfg = s.cfg := rfl
@[simp] theorem wake_env : (wake s).env = s.env := rfl
@[simp] theorem wake_overdrive : (wake s).overdrive = s.overdrive := rfl
@[simp] theorem wake_draws : (wake s).draws = s.draws := rfl

end

end Sys2Proof.Machine
end

