-- ==== Sys2Proof/Laws/Ops.lean ====
section
/-! SUPPORT. What each shared operation over registers and file registers can do: its fields, its result where its
operands are known, and the inversion of each template. -/

namespace Sys2Proof.Machine

section
variable (s : State) (t : Target) (d : Dest) (v : Byte)

/-! A read of a target changes `draws` alone. -/

@[simp] theorem afterRead_w : (afterRead t s).w = s.w := by unfold afterRead; split <;> rfl
@[simp] theorem afterRead_pc : (afterRead t s).pc = s.pc := by unfold afterRead; split <;> rfl
@[simp] theorem afterRead_stack : (afterRead t s).stack = s.stack := by unfold afterRead; split <;> rfl
@[simp] theorem afterRead_c : (afterRead t s).c = s.c := by unfold afterRead; split <;> rfl
@[simp] theorem afterRead_dc : (afterRead t s).dc = s.dc := by unfold afterRead; split <;> rfl
@[simp] theorem afterRead_z : (afterRead t s).z = s.z := by unfold afterRead; split <;> rfl
@[simp] theorem afterRead_toBit : (afterRead t s).toBit = s.toBit := by unfold afterRead; split <;> rfl
@[simp] theorem afterRead_pdBit : (afterRead t s).pdBit = s.pdBit := by unfold afterRead; split <;> rfl
@[simp] theorem afterRead_gie : (afterRead t s).gie = s.gie := by unfold afterRead; split <;> rfl
@[simp] theorem afterRead_intconLo : (afterRead t s).intconLo = s.intconLo := by unfold afterRead; split <;> rfl
@[simp] theorem afterRead_pclath : (afterRead t s).pclath = s.pclath := by unfold afterRead; split <;> rfl
@[simp] theorem afterRead_statusOther : (afterRead t s).statusOther = s.statusOther := by unfold afterRead; split <;> rfl
@[simp] theorem afterRead_option : (afterRead t s).option = s.option := by unfold afterRead; split <;> rfl
@[simp] theorem afterRead_tris : (afterRead t s).tris = s.tris := by unfold afterRead; split <;> rfl
@[simp] theorem afterRead_latch : (afterRead t s).latch = s.latch := by unfold afterRead; split <;> rfl
@[simp] theorem afterRead_tmr0 : (afterRead t s).tmr0 = s.tmr0 := by unfold afterRead; split <;> rfl
@[simp] theorem afterRead_fsr : (afterRead t s).fsr = s.fsr := by unfold afterRead; split <;> rfl
@[simp] theorem afterRead_gpr : (afterRead t s).gpr = s.gpr := by unfold afterRead; split <;> rfl
@[simp] theorem afterRead_wdt : (afterRead t s).wdt = s.wdt := by unfold afterRead; split <;> rfl
@[simp] theorem afterRead_psc : (afterRead t s).psc = s.psc := by unfold afterRead; split <;> rfl
@[simp] theorem afterRead_asleep : (afterRead t s).asleep = s.asleep := by unfold afterRead; split <;> rfl
@[simp] theorem afterRead_stale : (afterRead t s).stale = s.stale := by unfold afterRead; split <;> rfl
@[simp] theorem afterRead_stackPtr : (afterRead t s).stackPtr = s.stackPtr := by unfold afterRead; split <;> rfl
@[simp] theorem afterRead_justWoke : (afterRead t s).justWoke = s.justWoke := by unfold afterRead; split <;> rfl
@[simp] theorem afterRead_eeif : (afterRead t s).eeif = s.eeif := by unfold afterRead; split <;> rfl
@[simp] theorem afterRead_eeifMark : (afterRead t s).eeifMark = s.eeifMark := by unfold afterRead; split <;> rfl
@[simp] theorem afterRead_events : (afterRead t s).events = s.events := by unfold afterRead; split <;> rfl
@[simp] theorem afterRead_cycles : (afterRead t s).cycles = s.cycles := by unfold afterRead; split <;> rfl
@[simp] theorem afterRead_prog : (afterRead t s).prog = s.prog := by unfold afterRead; split <;> rfl
@[simp] theorem afterRead_cfg : (afterRead t s).cfg = s.cfg := by unfold afterRead; split <;> rfl
@[simp] theorem afterRead_env : (afterRead t s).env = s.env := by unfold afterRead; split <;> rfl
@[simp] theorem afterRead_overdrive : (afterRead t s).overdrive = s.overdrive := by unfold afterRead; split <;> rfl

theorem afterRead_draws : (afterRead t s).draws = s.draws + (if drawsOnRead t then 1 else 0) := by
  unfold afterRead; split <;> rfl

/-! What no file register write changes (R41). -/

@[simp] theorem writeTarget_w : (writeTarget t v s).w = s.w := by cases t <;> rfl
@[simp] theorem writeTarget_stack : (writeTarget t v s).stack = s.stack := by cases t <;> rfl
@[simp] theorem writeTarget_toBit : (writeTarget t v s).toBit = s.toBit := by cases t <;> rfl
@[simp] theorem writeTarget_pdBit : (writeTarget t v s).pdBit = s.pdBit := by cases t <;> rfl
@[simp] theorem writeTarget_wdt : (writeTarget t v s).wdt = s.wdt := by cases t <;> rfl
@[simp] theorem writeTarget_asleep : (writeTarget t v s).asleep = s.asleep := by cases t <;> rfl
@[simp] theorem writeTarget_stale : (writeTarget t v s).stale = s.stale := by cases t <;> rfl
@[simp] theorem writeTarget_stackPtr : (writeTarget t v s).stackPtr = s.stackPtr := by cases t <;> rfl
@[simp] theorem writeTarget_justWoke : (writeTarget t v s).justWoke = s.justWoke := by cases t <;> rfl
@[simp] theorem writeTarget_eeif : (writeTarget t v s).eeif = s.eeif := by cases t <;> rfl
@[simp] theorem writeTarget_eeifMark : (writeTarget t v s).eeifMark = s.eeifMark := by cases t <;> rfl
@[simp] theorem writeTarget_cycles : (writeTarget t v s).cycles = s.cycles := by cases t <;> rfl
@[simp] theorem writeTarget_prog : (writeTarget t v s).prog = s.prog := by cases t <;> rfl
@[simp] theorem writeTarget_cfg : (writeTarget t v s).cfg = s.cfg := by cases t <;> rfl
@[simp] theorem writeTarget_env : (writeTarget t v s).env = s.env := by cases t <;> rfl
@[simp] theorem writeTarget_overdrive : (writeTarget t v s).overdrive = s.overdrive := by cases t <;> rfl
@[simp] theorem writeTarget_draws : (writeTarget t v s).draws = s.draws := by cases t <;> rfl

/-! What a file register write changes, each field by the target that reaches it (R41). -/

theorem writeTarget_pc : (writeTarget t v s).pc = if t = .pcLow then s.pclath ++ v else s.pc := by
  cases t <;> rfl

theorem writeTarget_pclath : (writeTarget t v s).pclath = if t = .pcLatch then v.extractLsb' 0 5 else s.pclath := by
  cases t <;> rfl

theorem writeTarget_c :
    (writeTarget t v s).c = if t = .status then v.getLsbD s.cfg.statusLayout.cPos.val else s.c := by
  cases t <;> rfl

theorem writeTarget_dc :
    (writeTarget t v s).dc = if t = .status then v.getLsbD s.cfg.statusLayout.dcPos.val else s.dc := by
  cases t <;> rfl

theorem writeTarget_z :
    (writeTarget t v s).z = if t = .status then v.getLsbD s.cfg.statusLayout.zPos.val else s.z := by
  cases t <;> rfl

theorem writeTarget_statusOther :
    (writeTarget t v s).statusOther = if t = .status then (writeStatus v s).statusOther else s.statusOther := by
  cases t <;> rfl

theorem writeTarget_gie : (writeTarget t v s).gie = if t = .intcon then v.getLsbD 7 else s.gie := by
  cases t <;> rfl

theorem writeTarget_intconLo :
    (writeTarget t v s).intconLo = if t = .intcon then v.extractLsb' 0 7 else s.intconLo := by
  cases t <;> rfl

theorem writeTarget_fsr : (writeTarget t v s).fsr = if t = .fsr then v else s.fsr := by
  cases t <;> rfl

theorem writeTarget_option : (writeTarget t v s).option = if t = .option then v else s.option := by
  cases t <;> rfl

theorem writeTarget_tmr0 : (writeTarget t v s).tmr0 = if t = .tmr0 then v else s.tmr0 := by
  cases t <;> rfl

theorem writeTarget_psc :
    (writeTarget t v s).psc = if t = .tmr0 ∧ psaTmr0 s = true then 0 else s.psc := by
  cases t <;> simp [writeTarget, writeStatus]

theorem writeTarget_gpr :
    (writeTarget t v s).gpr = match t with | .gpr i => s.gpr.write i v | _ => s.gpr := by
  cases t <;> rfl

theorem writeTarget_gpr_read (j : Nat) :
    (writeTarget t v s).gpr.read j = if t = .gpr j then v else s.gpr.read j := by
  cases t with
  | gpr i =>
    simp only [writeTarget, memory_read_write, Target.gpr.injEq]
    by_cases h : j = i <;> simp [h, eq_comm]
  | _ => rfl

theorem ports_get_set (r : Ports) (p q : PortNum) : (r.set p v).get q = if p = q then v else r.get q := by
  cases p <;> cases q <;> rfl

theorem writeTarget_latch_get (q : PortNum) :
    (writeTarget t v s).latch.get q = if t = .port q then v else s.latch.get q := by
  cases t with
  | port p => simp [writeTarget, ports_get_set]
  | _ => rfl

theorem writeTarget_tris_get (q : PortNum) :
    (writeTarget t v s).tris.get q = if t = .tris q then v else s.tris.get q := by
  cases t with
  | tris p => simp [writeTarget, ports_get_set]
  | _ => rfl

/-! `finish`, and the destination. -/

@[simp] theorem writeDest_w : writeDest t .w v s = setW v s := rfl
@[simp] theorem writeDest_f : writeDest t .f v s = writeTarget t v s := rfl

theorem loadsPc_iff : loadsPc t d = true ↔ d = .f ∧ t = .pcLow := by simp [loadsPc]

theorem finish_pc : (finish t d s).pc = if loadsPc t d then s.pc else s.pc + 1 := by
  unfold finish; split <;> rfl

theorem finish_cycles : (finish t d s).cycles = s.cycles + (if loadsPc t d then 2 else 1) := by
  unfold finish; split <;> rfl

@[simp] theorem finish_w : (finish t d s).w = s.w := by unfold finish; split <;> rfl
@[simp] theorem finish_stack : (finish t d s).stack = s.stack := by unfold finish; split <;> rfl
@[simp] theorem finish_c : (finish t d s).c = s.c := by unfold finish; split <;> rfl
@[simp] theorem finish_dc : (finish t d s).dc = s.dc := by unfold finish; split <;> rfl
@[simp] theorem finish_z : (finish t d s).z = s.z := by unfold finish; split <;> rfl
@[simp] theorem finish_toBit : (finish t d s).toBit = s.toBit := by unfold finish; split <;> rfl
@[simp] theorem finish_pdBit : (finish t d s).pdBit = s.pdBit := by unfold finish; split <;> rfl
@[simp] theorem finish_gie : (finish t d s).gie = s.gie := by unfold finish; split <;> rfl
@[simp] theorem finish_intconLo : (finish t d s).intconLo = s.intconLo := by unfold finish; split <;> rfl
@[simp] theorem finish_pclath : (finish t d s).pclath = s.pclath := by unfold finish; split <;> rfl
@[simp] theorem finish_statusOther : (finish t d s).statusOther = s.statusOther := by unfold finish; split <;> rfl
@[simp] theorem finish_option : (finish t d s).option = s.option := by unfold finish; split <;> rfl
@[simp] theorem finish_tris : (finish t d s).tris = s.tris := by unfold finish; split <;> rfl
@[simp] theorem finish_latch : (finish t d s).latch = s.latch := by unfold finish; split <;> rfl
@[simp] theorem finish_tmr0 : (finish t d s).tmr0 = s.tmr0 := by unfold finish; split <;> rfl
@[simp] theorem finish_fsr : (finish t d s).fsr = s.fsr := by unfold finish; split <;> rfl
@[simp] theorem finish_gpr : (finish t d s).gpr = s.gpr := by unfold finish; split <;> rfl
@[simp] theorem finish_wdt : (finish t d s).wdt = s.wdt := by unfold finish; split <;> rfl
@[simp] theorem finish_psc : (finish t d s).psc = s.psc := by unfold finish; split <;> rfl
@[simp] theorem finish_asleep : (finish t d s).asleep = s.asleep := by unfold finish; split <;> rfl
@[simp] theorem finish_stale : (finish t d s).stale = s.stale := by unfold finish; split <;> rfl
@[simp] theorem finish_stackPtr : (finish t d s).stackPtr = s.stackPtr := by unfold finish; split <;> rfl
@[simp] theorem finish_justWoke : (finish t d s).justWoke = s.justWoke := by unfold finish; split <;> rfl
@[simp] theorem finish_eeif : (finish t d s).eeif = s.eeif := by unfold finish; split <;> rfl
@[simp] theorem finish_eeifMark : (finish t d s).eeifMark = s.eeifMark := by unfold finish; split <;> rfl
@[simp] theorem finish_events : (finish t d s).events = s.events := by unfold finish; split <;> rfl
@[simp] theorem finish_prog : (finish t d s).prog = s.prog := by unfold finish; split <;> rfl
@[simp] theorem finish_cfg : (finish t d s).cfg = s.cfg := by unfold finish; split <;> rfl
@[simp] theorem finish_env : (finish t d s).env = s.env := by unfold finish; split <;> rfl
@[simp] theorem finish_overdrive : (finish t d s).overdrive = s.overdrive := by unfold finish; split <;> rfl
@[simp] theorem finish_draws : (finish t d s).draws = s.draws := by unfold finish; split <;> rfl

end

section
variable {s u : State} {f : FileAddr} {d : Dest} {t : Target}

/-- The target of a file operand is FileMap's, or the one outcome R40 and R41 give (D12). -/
theorem fileTarget_cases (s : State) (f : FileAddr) :
    (fileTarget s f = .ok (fileMap s f) ∧ (fileMap s f = .unmapped → s.cfg.unmapped = .readZero)) ∨
      (fileTarget s f = .error (.fileUnmapped f s.pc) ∧ fileMap s f = .unmapped ∧ s.cfg.unmapped = .fault) := by
  unfold fileTarget
  split
  · rename_i h; exact .inr ⟨rfl, h⟩
  · rename_i h
    refine .inl ⟨rfl, fun hm => ?_⟩
    cases hp : s.cfg.unmapped with
    | fault => exact absurd ⟨hm, hp⟩ h
    | readZero => rfl

theorem byteOp_of_ok {alu : Byte → AluOut} (h : fileTarget s f = .ok t) :
    byteOp f d alu s =
      .next (finish t d (setFlags (alu (readValue t s)) (writeDest t d (alu (readValue t s)).r (afterRead t s)))) := by
  simp [byteOp, h]

theorem byteOp_of_error {alu : Byte → AluOut} {e : Fault} (h : fileTarget s f = .error e) :
    byteOp f d alu s = .fault e := by
  simp [byteOp, h]

/-- All that the template of R130 can do when it answers a next state. -/
theorem byteOp_cases {alu : Byte → AluOut} (h : byteOp f d alu s = .next u) :
    ∃ t, fileTarget s f = .ok t ∧
      u = finish t d (setFlags (alu (readValue t s)) (writeDest t d (alu (readValue t s)).r (afterRead t s))) := by
  cases ht : fileTarget s f with
  | error e => simp [byteOp_of_error ht] at h
  | ok t => exact ⟨t, rfl, by simpa [byteOp_of_ok ht] using h.symm⟩

theorem skipOp_of_ok {g : Byte → Byte} (h : fileTarget s f = .ok t) (hp : loadsPc t d = false) :
    skipOp f d g s =
      .next (if g (readValue t s) = 0 then skipInstr (writeDest t d (g (readValue t s)) (afterRead t s))
        else nextInstr (writeDest t d (g (readValue t s)) (afterRead t s))) := by
  simp [skipOp, h, hp]

theorem skipOp_of_loadsPc {g : Byte → Byte} (h : fileTarget s f = .ok t) (hp : loadsPc t d = true) :
    skipOp f d g s = .refused (.unspecifiedPcWrite s.pc) := by
  simp [skipOp, h, hp]

theorem skipOp_of_error {g : Byte → Byte} {e : Fault} (h : fileTarget s f = .error e) :
    skipOp f d g s = .fault e := by
  simp [skipOp, h]

/-- All that DECFSZ and INCFSZ can do when they answer a next state. -/
theorem skipOp_cases {g : Byte → Byte} (h : skipOp f d g s = .next u) :
    ∃ t, fileTarget s f = .ok t ∧ loadsPc t d = false ∧
      u = if g (readValue t s) = 0 then skipInstr (writeDest t d (g (readValue t s)) (afterRead t s))
        else nextInstr (writeDest t d (g (readValue t s)) (afterRead t s)) := by
  cases ht : fileTarget s f with
  | error e => simp [skipOp_of_error ht] at h
  | ok t =>
    cases hp : loadsPc t d with
    | true => simp [skipOp_of_loadsPc ht hp] at h
    | false => exact ⟨t, rfl, hp, by simpa [skipOp_of_ok ht hp] using h.symm⟩

theorem testOp_of_ok {b : BitVec 3} {on : Bool} (h : fileTarget s f = .ok t) :
    testOp f b on s =
      .next (if (readValue t s).getLsbD b.toNat = on then skipInstr (afterRead t s) else nextInstr (afterRead t s)) := by
  simp [testOp, h]

theorem testOp_of_error {b : BitVec 3} {on : Bool} {e : Fault} (h : fileTarget s f = .error e) :
    testOp f b on s = .fault e := by
  simp [testOp, h]

/-- All that BTFSC and BTFSS can do when they answer a next state. -/
theorem testOp_cases {b : BitVec 3} {on : Bool} (h : testOp f b on s = .next u) :
    ∃ t, fileTarget s f = .ok t ∧ (u = skipInstr (afterRead t s) ∨ u = nextInstr (afterRead t s)) := by
  cases ht : fileTarget s f with
  | error e => simp [testOp_of_error ht] at h
  | ok t =>
    rw [testOp_of_ok ht] at h
    refine ⟨t, rfl, ?_⟩
    split at h <;> simp_all

/-- The pointer stays among the slots. -/
theorem ptrUp_lt (h : 0 < s.cfg.stackDepth) : ptrUp s < s.cfg.stackDepth := Nat.mod_lt _ h

@[inherit_doc ptrUp_lt]
theorem ptrDown_lt (h : 0 < s.cfg.stackDepth) : ptrDown s < s.cfg.stackDepth := Nat.mod_lt _ h

/-- All that a push can do when it does not overflow (R30, R69). -/
theorem push_cases {v : ProgAddr} (h : push v s = .ok u) :
    (s.cfg.stackPolicy = .fault ∧ s.stack.length < s.cfg.stackDepth ∧
        u = { s with stack := v :: s.stack, stackPtr := ptrUp s }) ∨
      (s.cfg.stackPolicy = .circular ∧ s.stack.length < s.cfg.stackDepth ∧
        u = { s with stack := v :: s.stack, stale := s.stale.dropLast, stackPtr := ptrUp s }) ∨
      (s.cfg.stackPolicy = .circular ∧ ¬ s.stack.length < s.cfg.stackDepth ∧
        u = { s with stack := v :: s.stack.dropLast, stackPtr := ptrUp s }) := by
  unfold push at h
  cases hp : s.cfg.stackPolicy <;> simp only [hp] at h <;> split at h <;> simp_all

/-- All that a pop can do when it does not underflow (R31, R69). -/
theorem pop_cases {v : ProgAddr} (h : pop s = .ok (v, u)) :
    (∃ rest, s.cfg.stackPolicy = .fault ∧ s.stack = v :: rest ∧ u = { s with stack := rest, stackPtr := ptrDown s }) ∨
      (∃ rest, s.cfg.stackPolicy = .circular ∧ s.stack = v :: rest ∧
        u = { s with stack := rest, stale := s.stale ++ [v], stackPtr := ptrDown s }) ∨
      (∃ rest, s.cfg.stackPolicy = .circular ∧ s.stack = [] ∧ s.stale = v :: rest ∧
        u = { s with stale := rest ++ [v], stackPtr := ptrDown s }) ∨
      (s.cfg.stackPolicy = .circular ∧ s.stack = [] ∧ s.stale = [] ∧ v = Config.drawPc s.draws ∧
        u = takeDraw { s with stackPtr := ptrDown s }) := by
  unfold pop at h
  split at h <;> cases h <;> simp_all

/-- A circular stack never overflows (R69). -/
theorem push_circular (v : ProgAddr) (h : s.cfg.stackPolicy = .circular) : ∃ u, push v s = .ok u := by
  unfold push
  rw [h]
  simp only
  split <;> exact ⟨_, rfl⟩

/-- A circular stack never underflows (R69). -/
theorem pop_circular (h : s.cfg.stackPolicy = .circular) : ∃ v u, pop s = .ok (v, u) := by
  unfold pop
  split <;> simp_all

theorem popPc_cases (h : popPc s = .next u) : ∃ a s', pop s = .ok (a, s') ∧ u = jumpTo a s' := by
  unfold popPc at h
  split at h
  · cases h
  · rename_i a s' hp
    exact ⟨a, s', hp, by simpa using h.symm⟩

theorem returnFromInterrupt_cases (h : returnFromInterrupt s = .next u) :
    ∃ a s', pop s = .ok (a, s') ∧ u = jumpTo a { s' with gie := true } := by
  unfold returnFromInterrupt at h
  split at h
  · cases h
  · rename_i a s' hp
    exact ⟨a, s', hp, by simpa using h.symm⟩

/-- All that interrupt entry can do when it does not overflow (R228). -/
theorem enterInterrupt_cases (h : enterInterrupt s = .next u) :
    ∃ s', push s.pc s = .ok s' ∧ u = setPc s.cfg.intVector { s' with gie := false } := by
  unfold enterInterrupt at h
  split at h
  · cases h
  · rename_i s' hp
    exact ⟨s', hp, by simpa using h.symm⟩

end

end Sys2Proof.Machine
end

