-- ==== Sys2Proof/Laws/PerInstr.lean ====
section
/-! SUPPORT. The family EncodingRow: the canonical word of an instruction lies in its own row of the opcode map
(30_encoding.md R104). -/

namespace Sys2Proof

/-- The row of R104 that an instruction stands in: match and mask, as the table prints them. -/
def rowOf : Instr → InstrWord × InstrWord
  | .addwf _ _ => (0x0700, 0x3F00)
  | .andwf _ _ => (0x0500, 0x3F00)
  | .clrf _ => (0x0180, 0x3F80)
  | .clrw => (0x0100, 0x3F80)
  | .comf _ _ => (0x0900, 0x3F00)
  | .decf _ _ => (0x0300, 0x3F00)
  | .decfsz _ _ => (0x0B00, 0x3F00)
  | .incf _ _ => (0x0A00, 0x3F00)
  | .incfsz _ _ => (0x0F00, 0x3F00)
  | .iorwf _ _ => (0x0400, 0x3F00)
  | .movf _ _ => (0x0800, 0x3F00)
  | .movwf _ => (0x0080, 0x3F80)
  | .nop => (0x0000, 0x3F9F)
  | .rlf _ _ => (0x0D00, 0x3F00)
  | .rrf _ _ => (0x0C00, 0x3F00)
  | .subwf _ _ => (0x0200, 0x3F00)
  | .swapf _ _ => (0x0E00, 0x3F00)
  | .xorwf _ _ => (0x0600, 0x3F00)
  | .bcf _ _ => (0x1000, 0x3C00)
  | .bsf _ _ => (0x1400, 0x3C00)
  | .btfsc _ _ => (0x1800, 0x3C00)
  | .btfss _ _ => (0x1C00, 0x3C00)
  | .addlw _ => (0x3E00, 0x3E00)
  | .andlw _ => (0x3900, 0x3F00)
  | .call _ => (0x2000, 0x3800)
  | .clrwdt => (0x0064, 0x3FFF)
  | .goto _ => (0x2800, 0x3800)
  | .iorlw _ => (0x3800, 0x3F00)
  | .movlw _ => (0x3000, 0x3C00)
  | .retfie => (0x0009, 0x3FFF)
  | .retlw _ => (0x3400, 0x3C00)
  | .ret => (0x0008, 0x3FFF)
  | .sleep => (0x0063, 0x3FFF)
  | .sublw _ => (0x3C00, 0x3E00)
  | .xorlw _ => (0x3A00, 0x3F00)
  | .option => (0x0062, 0x3FFF)
  | .tris f => if f = 5 then (0x0065, 0x3FFF) else (0x0066, 0x3FFE)

/-! The masks of the formats: each keeps its opcode bits and clears the operand fields. -/

theorem wordByte_mask (op m : BitVec 6) (e : BitVec 1) (d : Dest) (f : FileAddr) :
    wordByte op d f &&& (m ++ e ++ 0#7) = (op &&& m) ++ (destBit d &&& e) ++ 0#7 := by
  have h := BitVec.and_append (x₁ := op ++ destBit d) (x₂ := m ++ e) (y₁ := f) (y₂ := 0#7)
  rw [BitVec.and_append (x₁ := op) (x₂ := m), BitVec.and_zero] at h
  exact h

theorem wordBit_mask (op m : BitVec 4) (b : BitVec 3) (f : FileAddr) :
    wordBit op b f &&& (m ++ 0#3 ++ 0#7) = (op &&& m) ++ 0#3 ++ 0#7 := by
  have h := BitVec.and_append (x₁ := op ++ b) (x₂ := m ++ 0#3) (y₁ := f) (y₂ := 0#7)
  rw [BitVec.and_append (x₁ := op) (x₂ := m), BitVec.and_zero, BitVec.and_zero] at h
  exact h

theorem wordLit_mask (op m : BitVec 6) (k : Byte) : wordLit op k &&& (m ++ 0#8) = (op &&& m) ++ 0#8 := by
  have h := BitVec.and_append (x₁ := op) (x₂ := m) (y₁ := k) (y₂ := 0#8)
  rw [BitVec.and_zero] at h
  exact h

theorem wordJump_mask (op m : BitVec 3) (k : BitVec 11) : wordJump op k &&& (m ++ 0#11) = (op &&& m) ++ 0#11 := by
  have h := BitVec.and_append (x₁ := op) (x₂ := m) (y₁ := k) (y₂ := 0#11)
  rw [BitVec.and_zero] at h
  exact h

namespace Laws.EncodingRow

/-- The word of a well-formed instruction has its row's fixed bits. -/
def Statement (i : Instr) : Prop := i.wf = true → encode i &&& (rowOf i).2 = (rowOf i).1

theorem addwf (f : FileAddr) (d : Dest) : Statement (.addwf f d) :=
  fun _ => (wordByte_mask _ 0x3F#6 0#1 d f).trans (by cases d <;> rfl)
theorem andwf (f : FileAddr) (d : Dest) : Statement (.andwf f d) :=
  fun _ => (wordByte_mask _ 0x3F#6 0#1 d f).trans (by cases d <;> rfl)
theorem comf (f : FileAddr) (d : Dest) : Statement (.comf f d) :=
  fun _ => (wordByte_mask _ 0x3F#6 0#1 d f).trans (by cases d <;> rfl)
theorem decf (f : FileAddr) (d : Dest) : Statement (.decf f d) :=
  fun _ => (wordByte_mask _ 0x3F#6 0#1 d f).trans (by cases d <;> rfl)
theorem decfsz (f : FileAddr) (d : Dest) : Statement (.decfsz f d) :=
  fun _ => (wordByte_mask _ 0x3F#6 0#1 d f).trans (by cases d <;> rfl)
theorem incf (f : FileAddr) (d : Dest) : Statement (.incf f d) :=
  fun _ => (wordByte_mask _ 0x3F#6 0#1 d f).trans (by cases d <;> rfl)
theorem incfsz (f : FileAddr) (d : Dest) : Statement (.incfsz f d) :=
  fun _ => (wordByte_mask _ 0x3F#6 0#1 d f).trans (by cases d <;> rfl)
theorem iorwf (f : FileAddr) (d : Dest) : Statement (.iorwf f d) :=
  fun _ => (wordByte_mask _ 0x3F#6 0#1 d f).trans (by cases d <;> rfl)
theorem movf (f : FileAddr) (d : Dest) : Statement (.movf f d) :=
  fun _ => (wordByte_mask _ 0x3F#6 0#1 d f).trans (by cases d <;> rfl)
theorem rlf (f : FileAddr) (d : Dest) : Statement (.rlf f d) :=
  fun _ => (wordByte_mask _ 0x3F#6 0#1 d f).trans (by cases d <;> rfl)
theorem rrf (f : FileAddr) (d : Dest) : Statement (.rrf f d) :=
  fun _ => (wordByte_mask _ 0x3F#6 0#1 d f).trans (by cases d <;> rfl)
theorem subwf (f : FileAddr) (d : Dest) : Statement (.subwf f d) :=
  fun _ => (wordByte_mask _ 0x3F#6 0#1 d f).trans (by cases d <;> rfl)
theorem swapf (f : FileAddr) (d : Dest) : Statement (.swapf f d) :=
  fun _ => (wordByte_mask _ 0x3F#6 0#1 d f).trans (by cases d <;> rfl)
theorem xorwf (f : FileAddr) (d : Dest) : Statement (.xorwf f d) :=
  fun _ => (wordByte_mask _ 0x3F#6 0#1 d f).trans (by cases d <;> rfl)
theorem clrf (f : FileAddr) : Statement (.clrf f) := fun _ => wordByte_mask _ 0x3F#6 1#1 .f f
theorem movwf (f : FileAddr) : Statement (.movwf f) := fun _ => wordByte_mask _ 0x3F#6 1#1 .f f
theorem bcf (f : FileAddr) (b : BitVec 3) : Statement (.bcf f b) := fun _ => wordBit_mask _ 0xF#4 b f
theorem bsf (f : FileAddr) (b : BitVec 3) : Statement (.bsf f b) := fun _ => wordBit_mask _ 0xF#4 b f
theorem btfsc (f : FileAddr) (b : BitVec 3) : Statement (.btfsc f b) := fun _ => wordBit_mask _ 0xF#4 b f
theorem btfss (f : FileAddr) (b : BitVec 3) : Statement (.btfss f b) := fun _ => wordBit_mask _ 0xF#4 b f
theorem addlw (k : Byte) : Statement (.addlw k) := fun _ => wordLit_mask _ 0x3E#6 k
theorem andlw (k : Byte) : Statement (.andlw k) := fun _ => wordLit_mask _ 0x3F#6 k
theorem iorlw (k : Byte) : Statement (.iorlw k) := fun _ => wordLit_mask _ 0x3F#6 k
theorem movlw (k : Byte) : Statement (.movlw k) := fun _ => wordLit_mask _ 0x3C#6 k
theorem retlw (k : Byte) : Statement (.retlw k) := fun _ => wordLit_mask _ 0x3C#6 k
theorem sublw (k : Byte) : Statement (.sublw k) := fun _ => wordLit_mask _ 0x3E#6 k
theorem xorlw (k : Byte) : Statement (.xorlw k) := fun _ => wordLit_mask _ 0x3F#6 k
theorem call (k : BitVec 11) : Statement (.call k) := fun _ => wordJump_mask _ 7#3 k
theorem goto (k : BitVec 11) : Statement (.goto k) := fun _ => wordJump_mask _ 7#3 k
theorem clrw : Statement .clrw := fun _ => by decide
theorem nop : Statement .nop := fun _ => by decide
theorem clrwdt : Statement .clrwdt := fun _ => by decide
theorem retfie : Statement .retfie := fun _ => by decide
theorem ret : Statement .ret := fun _ => by decide
theorem sleep : Statement .sleep := fun _ => by decide
theorem option : Statement .option := fun _ => by decide
theorem tris (f : BitVec 3) : Statement (.tris f) := by revert f; unfold Statement; decide

end Laws.EncodingRow

end Sys2Proof
end

