-- ==== Sys2Proof/Laws/Step.lean ====
section
/-! SUPPORT. What one step can do: the inversion of `step` into the environment's events, the hold of SLEEP mode,
interrupt entry and the execution of one decoded instruction. -/

namespace Sys2Proof.Machine

variable {s u : State}

theorem runInstr_of_decoded {w : InstrWord} {i : Instr} (hf : fetch s = some w) (hd : decode w = .ok i) :
    runInstr s = exec i { s with justWoke := false } := by
  simp [runInstr, hf, hd]

/-- All that executing the instruction at pc can do when it answers a next state. -/
theorem runInstr_cases (h : runInstr s = .next u) :
    ∃ w i, fetch s = some w ∧ decode w = .ok i ∧ exec i { s with justWoke := false } = .next u := by
  unfold runInstr at h
  split at h
  · cases h
  · rename_i w hw
    split at h
    · cases h
    · rename_i i hd
      exact ⟨w, i, hw, hd, h⟩

/-- All that a boundary of the core can do when it answers a next state. -/
theorem boundary_cases (h : boundary s = .next u) :
    (s.asleep = true ∧ u = s) ∨
      (s.asleep = false ∧ samplesIrq s = true ∧ irq s = true ∧ enterInterrupt (afterIrq s) = .next u) ∨
      (s.asleep = false ∧ samplesIrq s = true ∧ irq s = false ∧ runInstr (afterIrq s) = .next u) ∨
      (s.asleep = false ∧ samplesIrq s = false ∧ runInstr s = .next u) := by
  unfold boundary at h
  split at h
  · rename_i ha
    exact .inl ⟨ha, by simpa using h.symm⟩
  · split at h
    · split at h <;> simp_all
    · simp_all

/-- All that a step can do: an event of the environment, or the core's boundary once the entry that gave it is used. -/
theorem step_cases (h : step s = .next u) :
    (∃ e rest, s.env = e :: rest ∧ e ≠ .run ∧ applyEvent e { s with env := rest } = .next u) ∨
      (∃ rest, s.env = .run :: rest ∧ boundary { s with env := rest } = .next u) ∨
      (s.env = [] ∧ boundary s = .next u) := by
  unfold step stepOnce at h
  split at h
  · rename_i he; exact .inr (.inr ⟨he, h⟩)
  · rename_i rest he; exact .inr (.inl ⟨rest, he, h⟩)
  · rename_i e rest hne he; exact .inl ⟨e, rest, he, fun hr => hne hr, h⟩

theorem step_of_silent (h : s.env = []) : step s = boundary s := by
  simp [step, stepOnce, h]

@[simp] theorem afterIrq_cfg (s : State) : (afterIrq s).cfg = s.cfg := by unfold afterIrq; split <;> rfl
@[simp] theorem afterIrq_pc (s : State) : (afterIrq s).pc = s.pc := by unfold afterIrq; split <;> rfl
@[simp] theorem afterIrq_prog (s : State) : (afterIrq s).prog = s.prog := by unfold afterIrq; split <;> rfl

/-- Looking at irq changes `draws` alone. -/
theorem afterIrq_cases (s : State) : afterIrq s = s ∨ afterIrq s = takeDraw s := by
  unfold afterIrq; split <;> simp

end Sys2Proof.Machine
end

