-- ==== Sys2Proof/Tests/Slice0.lean ====
section
/-! SUPPORT. Small tests: the well-formedness checks refuse ill-formed terms; a word of every instruction, written from
its row of 30_encoding.md R104, decodes to it; one step of each instruction with the values of 95_test_vectors.md;
and, for each statement with hypotheses, a concrete state and operands that meet them all. -/

namespace Sys2Proof.Tests

open Sys2Proof.Machine

/-! ## Ill-formed terms (R43, R71, R111; the canonical form of the two stores) -/

theorem test_wf_refuses_tris_zero : Instr.wf (.tris 0) = false := by decide
theorem test_wf_refuses_tris_four : Instr.wf (.tris 4) = false := by decide
theorem test_wf_refuses_layout : ({ StatusLayout.p84 with zPos := 0 } : StatusLayout).wf = false := by decide
theorem test_wf_refuses_config_layout :
    ({ Config.p84 with statusLayout := { StatusLayout.p84 with zPos := 0 } } : Config).wf = false := by decide
theorem test_wf_refuses_no_stack : ({ Config.p84 with stackDepth := 0 } : Config).wf = false := by decide
theorem test_wf_refuses_no_program : ({ Config.p84 with progWords := 0 } : Config).wf = false := by decide
theorem test_wf_refuses_long_program : ({ Config.p84 with progWords := 8193 } : Config).wf = false := by decide
theorem test_wf_refuses_falling_cells : Memory.wf [(3, 1), (2, 1)] = false := by decide
theorem test_wf_refuses_repeated_cells : Memory.wf [(3, 1), (3, 2)] = false := by decide
theorem test_wf_refuses_fill_value : Memory.wf [(3, 0)] = false := by decide
theorem test_wf_refuses_erased_word : ProgMem.wf Config.p84 [(3, 0x3FFF)] = false := by decide
theorem test_wf_refuses_falling_words : ProgMem.wf Config.p84 [(3, 0), (2, 0)] = false := by decide
theorem test_wf_holds_at_p84 : Config.p84.wf = true := by decide
theorem test_inv_refuses_deep_stack :
    ({ State.reset with stack := [1, 2, 3, 4, 5, 6, 7, 8, 9], stale := [] } : State).Inv = false := by decide

/-! ## Decoding: words written out from the patterns of R104 -/

theorem test_decode_addwf :
    decode 0b00011110101010#14 = .ok (.addwf 0x2A .f) ∧ encode (.addwf 0x2A .f) = 0b00011110101010#14 := by decide
theorem test_decode_andwf :
    decode 0b00010110101010#14 = .ok (.andwf 0x2A .f) ∧ encode (.andwf 0x2A .f) = 0b00010110101010#14 := by decide
theorem test_decode_clrf :
    decode 0b00000110101010#14 = .ok (.clrf 0x2A) ∧ encode (.clrf 0x2A) = 0b00000110101010#14 := by decide
theorem test_decode_clrw :
    decode 0b00000100000000#14 = .ok .clrw ∧ encode .clrw = 0b00000100000000#14 := by decide
theorem test_decode_comf :
    decode 0b00100110101010#14 = .ok (.comf 0x2A .f) ∧ encode (.comf 0x2A .f) = 0b00100110101010#14 := by decide
theorem test_decode_decf :
    decode 0b00001110101010#14 = .ok (.decf 0x2A .f) ∧ encode (.decf 0x2A .f) = 0b00001110101010#14 := by decide
theorem test_decode_decfsz :
    decode 0b00101110101010#14 = .ok (.decfsz 0x2A .f) ∧ encode (.decfsz 0x2A .f) = 0b00101110101010#14 := by decide
theorem test_decode_incf :
    decode 0b00101010101010#14 = .ok (.incf 0x2A .f) ∧ encode (.incf 0x2A .f) = 0b00101010101010#14 := by decide
theorem test_decode_incfsz :
    decode 0b00111110101010#14 = .ok (.incfsz 0x2A .f) ∧ encode (.incfsz 0x2A .f) = 0b00111110101010#14 := by decide
theorem test_decode_iorwf :
    decode 0b00010010101010#14 = .ok (.iorwf 0x2A .f) ∧ encode (.iorwf 0x2A .f) = 0b00010010101010#14 := by decide
theorem test_decode_movf :
    decode 0b00100010101010#14 = .ok (.movf 0x2A .f) ∧ encode (.movf 0x2A .f) = 0b00100010101010#14 := by decide
theorem test_decode_movwf :
    decode 0b00000010101010#14 = .ok (.movwf 0x2A) ∧ encode (.movwf 0x2A) = 0b00000010101010#14 := by decide
theorem test_decode_nop :
    decode 0b00000000000000#14 = .ok .nop ∧ encode .nop = 0b00000000000000#14 := by decide
theorem test_decode_rlf :
    decode 0b00110110101010#14 = .ok (.rlf 0x2A .f) ∧ encode (.rlf 0x2A .f) = 0b00110110101010#14 := by decide
theorem test_decode_rrf :
    decode 0b00110010101010#14 = .ok (.rrf 0x2A .f) ∧ encode (.rrf 0x2A .f) = 0b00110010101010#14 := by decide
theorem test_decode_subwf :
    decode 0b00001010101010#14 = .ok (.subwf 0x2A .f) ∧ encode (.subwf 0x2A .f) = 0b00001010101010#14 := by decide
theorem test_decode_swapf :
    decode 0b00111010101010#14 = .ok (.swapf 0x2A .f) ∧ encode (.swapf 0x2A .f) = 0b00111010101010#14 := by decide
theorem test_decode_xorwf :
    decode 0b00011010101010#14 = .ok (.xorwf 0x2A .f) ∧ encode (.xorwf 0x2A .f) = 0b00011010101010#14 := by decide
theorem test_decode_bcf :
    decode 0b01001100101010#14 = .ok (.bcf 0x2A 6) ∧ encode (.bcf 0x2A 6) = 0b01001100101010#14 := by decide
theorem test_decode_bsf :
    decode 0b01011100101010#14 = .ok (.bsf 0x2A 6) ∧ encode (.bsf 0x2A 6) = 0b01011100101010#14 := by decide
theorem test_decode_btfsc :
    decode 0b01101100101010#14 = .ok (.btfsc 0x2A 6) ∧ encode (.btfsc 0x2A 6) = 0b01101100101010#14 := by decide
theorem test_decode_btfss :
    decode 0b01111100101010#14 = .ok (.btfss 0x2A 6) ∧ encode (.btfss 0x2A 6) = 0b01111100101010#14 := by decide
theorem test_decode_addlw :
    decode 0b11111010010110#14 = .ok (.addlw 0x96) ∧ encode (.addlw 0x96) = 0b11111010010110#14 := by decide
theorem test_decode_andlw :
    decode 0b11100110010110#14 = .ok (.andlw 0x96) ∧ encode (.andlw 0x96) = 0b11100110010110#14 := by decide
theorem test_decode_call :
    decode 0b10010010110101#14 = .ok (.call 0x4B5) ∧ encode (.call 0x4B5) = 0b10010010110101#14 := by decide
theorem test_decode_clrwdt :
    decode 0b00000001100100#14 = .ok .clrwdt ∧ encode .clrwdt = 0b00000001100100#14 := by decide
theorem test_decode_goto :
    decode 0b10110010110101#14 = .ok (.goto 0x4B5) ∧ encode (.goto 0x4B5) = 0b10110010110101#14 := by decide
theorem test_decode_iorlw :
    decode 0b11100010010110#14 = .ok (.iorlw 0x96) ∧ encode (.iorlw 0x96) = 0b11100010010110#14 := by decide
theorem test_decode_movlw :
    decode 0b11000010010110#14 = .ok (.movlw 0x96) ∧ encode (.movlw 0x96) = 0b11000010010110#14 := by decide
theorem test_decode_retfie :
    decode 0b00000000001001#14 = .ok .retfie ∧ encode .retfie = 0b00000000001001#14 := by decide
theorem test_decode_retlw :
    decode 0b11010010010110#14 = .ok (.retlw 0x96) ∧ encode (.retlw 0x96) = 0b11010010010110#14 := by decide
theorem test_decode_ret :
    decode 0b00000000001000#14 = .ok .ret ∧ encode .ret = 0b00000000001000#14 := by decide
theorem test_decode_sleep :
    decode 0b00000001100011#14 = .ok .sleep ∧ encode .sleep = 0b00000001100011#14 := by decide
theorem test_decode_sublw :
    decode 0b11110010010110#14 = .ok (.sublw 0x96) ∧ encode (.sublw 0x96) = 0b11110010010110#14 := by decide
theorem test_decode_xorlw :
    decode 0b11101010010110#14 = .ok (.xorlw 0x96) ∧ encode (.xorlw 0x96) = 0b11101010010110#14 := by decide
theorem test_decode_option :
    decode 0b00000001100010#14 = .ok .option ∧ encode .option = 0b00000001100010#14 := by decide
theorem test_decode_tris :
    decode 0b00000001100101#14 = .ok (.tris 5) ∧ encode (.tris 5) = 0b00000001100101#14 := by decide
theorem test_decode_tris_six_seven :
    decode 0b00000001100110#14 = .ok (.tris 6) ∧ decode 0b00000001100111#14 = .ok (.tris 7) := by decide
theorem test_decode_addwf_to_w : decode 0b00011100101010#14 = .ok (.addwf 0x2A .w) := by decide
/-- Don't-care bits set (R105). -/
theorem test_decode_dont_care_bits :
    decode 0b00000101111111#14 = .ok .clrw ∧ decode 0b00000001100000#14 = .ok .nop ∧
    decode 0b11111100010101#14 = .ok (.addlw 0x15) ∧ decode 0b11001100010101#14 = .ok (.movlw 0x15) ∧
    decode 0b11011101000001#14 = .ok (.retlw 0x41) ∧ decode 0b11110100000010#14 = .ok (.sublw 0x02) := by decide
theorem test_decode_reserved :
    decode 0b00000000000001#14 = .error (.reserved 0x0001) ∧ decode 0b00000001100001#14 = .error (.reserved 0x0061) ∧
    decode 0b00000001111111#14 = .error (.reserved 0x007F) ∧
    decode 0b11101100000000#14 = .error (.reserved 0x3B00) := by decide
theorem test_table_word_too_wide : decodeTableWord 16 0x4000 = none := by decide

/-! ## One step of each instruction (95_test_vectors.md; file address 0x20 is cell 0x14) -/

/-- The state a step ends in, if it goes on. -/
def nextOf : Result → Option State
  | .next s => some s
  | .fault _ => none
  | .refused _ => none

/-- A small state: pc = 0x100, W and the file register at 0x20 as given. -/
def small (w f : Byte) : State := { State.reset with pc := 0x100, w := w, gpr := Memory.write [] 0x14 f }

/-- The state after the word `n` has run as the next instruction. -/
def ran (n : Nat) (s : State) : Option State := nextOf (step (s.withFetchWord 14 n))

/-- W and the file register at 0x20 after the word `n`. -/
def data (n : Nat) (s : State) : Option (Byte × Byte) := (ran n s).map fun u => (u.w, u.gpr.read 0x14)

/-- C, DC and Z after the word `n`. -/
def flags (n : Nat) (s : State) : Option (Bool × Bool × Bool) := (ran n s).map fun u => (u.c, u.dc, u.z)

/-- W, the file register at 0x20, and Z after the word `n`. -/
def dataZ (n : Nat) (s : State) : Option (Byte × Byte × Bool) := (ran n s).map fun u => (u.w, u.gpr.read 0x14, u.z)

/-- The pc and the cycles after the word `n`. -/
def flow (n : Nat) (s : State) : Option (ProgAddr × Nat) := (ran n s).map fun u => (u.pc, u.cycles)

/-- With the three flags set. -/
def flagged (s : State) : State := { s with c := true, dc := true, z := true }

theorem test_addwf : dataZ 0x07A0 (small 0x01 0xFF) = some (0x01, 0x00, true) := by decide
theorem test_andwf_to_f : data 0x05A0 (small 0x17 0xC2) = some (0x17, 0x02) := by decide
theorem test_andwf_flags : flags 0x0520 (flagged (small 0x0F 0xF0)) = some (true, true, true) := by decide
theorem test_clrf : dataZ 0x01A0 (small 0x33 0x5A) = some (0x33, 0x00, true) := by decide
theorem test_clrw : data 0x017F (small 0x5A 0x77) = some (0x00, 0x77) := by decide
theorem test_clrw_flags : flags 0x0100 (small 0x5A 0x00) = some (false, false, true) := by decide
theorem test_comf : data 0x0920 (small 0x00 0x13) = some (0xEC, 0x13) := by decide
theorem test_comf_flags : flags 0x09A0 (small 0x00 0xFF) = some (false, false, true) := by decide
theorem test_decf_wraps : data 0x03A0 (small 0x00 0x00) = some (0x00, 0xFF) := by decide
theorem test_decf_flags : flags 0x03A0 (flagged (small 0x00 0x00)) = some (true, true, false) := by decide
theorem test_decfsz_skips : flow 0x0BA0 (small 0x00 0x01) = some (0x102, 2) := by decide
theorem test_incf_wraps : data 0x0AA0 (small 0x00 0xFF) = some (0x00, 0x00) := by decide
theorem test_incf_flags : flags 0x0AA0 (small 0x00 0xFF) = some (false, false, true) := by decide
theorem test_incfsz_to_w : data 0x0F20 (small 0x55 0xFF) = some (0x00, 0xFF) := by decide
theorem test_incfsz_goes_on : flow 0x0FA0 (small 0x00 0x00) = some (0x101, 1) := by decide
theorem test_iorwf : data 0x0420 (small 0x91 0x13) = some (0x93, 0x13) := by decide
theorem test_iorwf_flags : flags 0x04A0 (small 0x00 0x00) = some (false, false, true) := by decide
theorem test_movf : dataZ 0x0820 (flagged (small 0x00 0xC2)) = some (0xC2, 0xC2, false) := by decide
theorem test_movwf : dataZ 0x00A0 (flagged (small 0x4F 0xFF)) = some (0x4F, 0x4F, true) := by decide
theorem test_nop : data 0x0040 (small 0x12 0x34) = some (0x12, 0x34) := by decide
theorem test_nop_advances : flow 0x0000 (small 0x00 0x00) = some (0x101, 1) := by decide
theorem test_rlf : data 0x0D20 (small 0x00 0xE6) = some (0xCC, 0xE6) := by decide
theorem test_rlf_flags : flags 0x0DA0 (small 0x00 0x80) = some (true, false, false) := by decide
theorem test_rrf_carry_in : data 0x0CA0 (flagged (small 0x00 0x00)) = some (0x00, 0x80) := by decide
theorem test_rrf_flags : flags 0x0CA0 (small 0x00 0x01) = some (true, false, false) := by decide
theorem test_subwf : data 0x02A0 (small 0x01 0x10) = some (0x01, 0x0F) := by decide
theorem test_subwf_flags : flags 0x02A0 (small 0x01 0x10) = some (true, false, false) := by decide
theorem test_swapf : data 0x0E20 (small 0x00 0xA5) = some (0x5A, 0xA5) := by decide
theorem test_swapf_flags : flags 0x0EA0 (flagged (small 0x00 0x0F)) = some (true, true, true) := by decide
theorem test_xorwf : data 0x06A0 (small 0xB5 0xAF) = some (0xB5, 0x1A) := by decide
theorem test_xorwf_flags : flags 0x0620 (small 0x5A 0x5A) = some (false, false, true) := by decide
theorem test_bcf : data 0x11A0 (small 0x00 0xFF) = some (0x00, 0xF7) := by decide
theorem test_bsf : data 0x17A0 (small 0x00 0x0A) = some (0x00, 0x8A) := by decide
theorem test_btfsc_skips : flow 0x1BA0 (small 0x00 0x7F) = some (0x102, 2) := by decide
theorem test_btfsc_goes_on : flow 0x18A0 (small 0x00 0x02) = some (0x101, 1) := by decide
theorem test_btfss_skips : flow 0x1CA0 (small 0x00 0x02) = some (0x102, 2) := by decide
theorem test_btfss_goes_on : flow 0x1C20 (small 0x00 0xFE) = some (0x101, 1) := by decide
theorem test_addlw : data 0x3E15 (small 0x10 0x00) = some (0x25, 0x00) := by decide
theorem test_addlw_flags : flags 0x3E01 (small 0xFF 0x00) = some (true, true, true) := by decide
theorem test_andlw : data 0x395F (small 0xA3 0x00) = some (0x03, 0x00) := by decide
theorem test_iorlw : data 0x3835 (small 0x9A 0x00) = some (0xBF, 0x00) := by decide
theorem test_iorlw_flags : flags 0x3835 (flagged (small 0x9A 0x00)) = some (true, true, false) := by decide
theorem test_movlw : data 0x305A (small 0x00 0x00) = some (0x5A, 0x00) := by decide
theorem test_sublw : data 0x3C02 (small 0x03 0x00) = some (0xFF, 0x00) := by decide
theorem test_sublw_flags : flags 0x3C02 (small 0x02 0x00) = some (true, true, true) := by decide
theorem test_xorlw : data 0x3AAF (small 0xB5 0x00) = some (0x1A, 0x00) := by decide
theorem test_goto_page : flow 0x2923 { small 0 0 with pclath := 0x08 } = some (0x0923, 2) := by decide
theorem test_call_wraps :
    (ran 0x2010 { small 0 0 with pc := 0x1FFF, pclath := 0x10 }).map (fun u => (u.pc, u.stack)) =
      some (0x1010, [0x0000]) := by decide
theorem test_call_full_stack :
    step (({ small 0 0 with stack := [1, 2, 3, 4, 5, 6, 7, 8],
                            cfg := { Config.p84 with stackPolicy := .fault } } : State).withFetchWord 14 0x2010) =
      .fault (.stackOverflow 0x100) := rfl
theorem test_return :
    (ran 0x0008 { small 0 0 with stack := [0x0ABC, 0x0005] }).map (fun u => (u.pc, u.stack)) =
      some (0x0ABC, [0x0005]) := by decide
theorem test_retlw :
    (ran 0x3441 { small 7 0 with stack := [0x0002] }).map (fun u => (u.w, u.pc)) = some (0x41, 0x0002) := by decide
theorem test_retfie :
    (ran 0x0009 { small 0 0 with stack := [0x0014] }).map (fun u => (u.pc, u.gie)) = some (0x0014, true) := by decide
theorem test_clrwdt :
    (ran 0x0064 { small 0 0 with toBit := false, pdBit := false, wdt := 9 }).map (fun u => (u.wdt, u.toBit, u.pdBit)) =
      some (0, true, true) := by decide
theorem test_sleep :
    (ran 0x0063 { small 0 0 with toBit := false }).map (fun u => (u.asleep, u.toBit, u.pdBit, u.pc)) =
      some (true, true, false, 0x101) := by decide
theorem test_option : (ran 0x0062 (small 0x4F 0)).map (fun u => u.option) = some 0x4F := by decide
theorem test_tris_seven : (ran 0x0067 (small 0xAA 0)).map (fun u => u.tris) = some ⟨0x1F, 0xFF, 0xAA⟩ := by decide
theorem test_tris_five : (ran 0x0065 (small 0x0F 0)).map (fun u => u.tris) = some ⟨0x0F, 0xFF, 0x00⟩ := by decide

/-! The special file registers under P84 (V-P84), interrupts and sleep (V-INT), program addresses. -/

theorem test_addwf_pcl :
    flow 0x0782 { small 0xF0 0 with pc := 0x2FE, pclath := 2 } = some (0x2EF, 2) := by decide
theorem test_movf_pcl : (ran 0x0802 { small 7 0 with pc := 0x1FF }).map (fun u => (u.w, u.z)) = some (0, true) := by
  decide
theorem test_decfsz_pcl : step ((small 0 0).withFetchWord 14 0x0B82) = .refused (.unspecifiedPcWrite 0x100) := rfl
theorem test_clrf_status_keeps_to_pd :
    (ran 0x0183 (flagged (small 0 0))).map (fun u => statusImage u) = some 0b00011100 := by decide
theorem test_write_goes_to_fsr : (ran 0x0080 { small 0x42 0 with fsr := 0x20 }).map (fun u => u.gpr.read 0x14) =
    some 0x42 := by decide
theorem test_reserved_word : step ((small 0 0).withFetchWord 14 0x3B00) = .refused (.reservedEncoding 0x3B00 0x100) := rfl
theorem test_interrupt_entry :
    (nextOf (step { small 0 0 with gie := true, intconLo := 0b0010010 })).map (fun u => (u.pc, u.gie, u.stack)) =
      some (0x004, false, [0x100]) := by decide
theorem test_wake_by_pin :
    (nextOf (step { small 0 0 with asleep := true, intconLo := 0b0010000, env := [.intEdge true] })).map
      (fun u => (u.asleep, u.pc)) = some (false, 0x100) := by decide
/-- With OPTION<6> = 1 a falling edge is not the one chosen (R226, R63). -/
theorem test_other_edge :
    (nextOf (step { small 0 0 with env := [.intEdge false] })).map (fun u => u.intconLo) = some 0 := by decide
/-- TRISA's three unimplemented bits read 0 (R60). -/
theorem test_trisa_reads_five_bits :
    readValue (.tris .p5) { small 0 0 with tris := ⟨0xFF, 0xFF, 0xFF⟩ } = 0x1F := by decide
/-- A device write is recorded and changes nothing else (R41); the EEPROM clears EEIF only after one of 0 to it (R226). -/
theorem test_eeif_clears_after_software :
    let s := { small 0 0 with eeif := true, statusOther := 1, env := [.eeifCleared] }
    ((nextOf (exec (.movwf 0x08) s)).map fun u => (u.eeif, (nextOf (step u)).map fun v => v.eeif)) =
      some (true, some false) ∧ (nextOf (step s)).map (fun v => v.eeif) = some true := by decide
/-- After a master clear the pointer stands at the first slot, so an empty pop meets the last slot first (R50). -/
theorem test_reset_pointer :
    (nextOf (masterClear { small 0 0 with stack := [9], stale := [8, 7, 6, 5, 4, 3, 2], stackPtr := 3 })).map
      (fun u => (u.stack, u.stale, u.stackPtr)) = some ([], [6, 5, 4, 3, 2, 9, 8, 7], 0) := by decide
theorem test_erased_word : fetch State.reset = some 0x3FFF := by decide

/-! ## Witnesses: states and operands that meet the hypotheses of each statement -/

/-- The pc after one step. -/
def flowOf (s : State) : Option ProgAddr := (nextOf (step s)).map fun u => u.pc

/-- R4's own stack policy in place of P84's. -/
def faulting (s : State) : State := { s with cfg := { Config.p84 with stackPolicy := .fault } }

/-- The stack full of one address. -/
def fullStack : List ProgAddr := [5, 5, 5, 5, 5, 5, 5, 5]

/-- Asleep, every interrupt source enabled. -/
def napping (env : List EnvEvent) : State :=
  { State.reset with asleep := true, intconLo := 0b1111000, env := env }

/-- P84's 1024 words, the word `n` at address 0 and a reserved word after it. -/
def skipping (n : InstrWord) (f : Byte) : State :=
  { State.reset with prog := [(0, n), (1, 0x3B00)], gpr := Memory.write [] 0x14 f }

theorem witness_AddwfAddsWAndFile :
    FileAccessible State.reset 0x00 ∧ FileAccessible State.reset 0x20 ∧ FileAccessible State.reset 0x7F :=
  ⟨fun _ => rfl, fun _ => rfl, fun _ => rfl⟩
theorem witness_SubwfSubtractsWFromFile :
    FileAccessible State.reset 0x00 ∧ FileAccessible State.reset 0x20 ∧ FileAccessible State.reset 0x7F :=
  ⟨fun _ => rfl, fun _ => rfl, fun _ => rfl⟩
theorem witness_LogicOfWAndFile :
    FileAccessible State.reset 0x00 ∧ FileAccessible State.reset 0x20 ∧ FileAccessible State.reset 0x7F :=
  ⟨fun _ => rfl, fun _ => rfl, fun _ => rfl⟩
theorem witness_ComplementAndMoveOfFile :
    FileAccessible State.reset 0x00 ∧ FileAccessible State.reset 0x20 ∧ FileAccessible State.reset 0x7F :=
  ⟨fun _ => rfl, fun _ => rfl, fun _ => rfl⟩
theorem witness_IncrementAndDecrementOfFile :
    FileAccessible State.reset 0x00 ∧ FileAccessible State.reset 0x20 ∧ FileAccessible State.reset 0x7F :=
  ⟨fun _ => rfl, fun _ => rfl, fun _ => rfl⟩
theorem witness_RotatesOfFileThroughCarry :
    FileAccessible State.reset 0x00 ∧ FileAccessible State.reset 0x20 ∧ FileAccessible State.reset 0x7F :=
  ⟨fun _ => rfl, fun _ => rfl, fun _ => rfl⟩
theorem witness_SwapfExchangesNibbles :
    FileAccessible State.reset 0x00 ∧ FileAccessible State.reset 0x20 ∧ FileAccessible State.reset 0x7F :=
  ⟨fun _ => rfl, fun _ => rfl, fun _ => rfl⟩
theorem witness_ClrfAndMovwfWriteFile :
    FileAccessible State.reset 0x00 ∧ FileAccessible State.reset 0x20 ∧ FileAccessible State.reset 0x7F :=
  ⟨fun _ => rfl, fun _ => rfl, fun _ => rfl⟩
theorem witness_BcfAndBsfWriteOneBit :
    FileAccessible State.reset 0x00 ∧ FileAccessible State.reset 0x20 ∧ FileAccessible State.reset 0x7F :=
  ⟨fun _ => rfl, fun _ => rfl, fun _ => rfl⟩
theorem witness_BtfscAndBtfssSkipOnBit :
    FileAccessible State.reset 0x00 ∧ FileAccessible State.reset 0x20 ∧ FileAccessible State.reset 0x7F :=
  ⟨fun _ => rfl, fun _ => rfl, fun _ => rfl⟩
theorem witness_DecfszAndIncfszSkipOnZero :
    (FileAccessible State.reset 0x20 ∧ ¬ LandsOn (fileMap State.reset 0x20) .f .pcLow) ∧
    (FileAccessible State.reset 0x02 ∧ ¬ LandsOn (fileMap State.reset 0x02) .w .pcLow) :=
  ⟨⟨fun _ => rfl, by decide⟩, ⟨fun _ => rfl, by decide⟩⟩
theorem witness_SkipIntoPcLowIsRefused : fileMap State.reset 0x02 = .pcLow := by decide
/-- An empty cell range's first address and the hole at 0x07 (R60), with the spec's own policy. -/
theorem witness_UnmappedFileAddressFaults :
    let s := { State.reset with cfg := { Config.p84 with unmapped := .fault } }
    fileMap s 0x50 = .unmapped ∧ fileMap s 0x07 = .unmapped ∧ s.cfg.unmapped = .fault ∧
    .addwf 0x50 .w ∈ fileInstrs 0x50 .w 0 ∧ .btfss 0x07 7 ∈ fileInstrs 0x07 .w 7 := by decide
/-- Room, the last free level, a full circular stack; and a full stack under the spec's own policy. -/
theorem witness_CallPushesAndJumps :
    CanPush (faulting State.reset) ∧ CanPush (faulting { State.reset with stack := [1, 2, 3, 4, 5, 6, 7] }) ∧
    CanPush { State.reset with stack := fullStack } ∧ ¬ CanPush (faulting { State.reset with stack := fullStack }) := by
  unfold CanPush; decide
/-- One entry under the spec's own policy; none under P84's. -/
theorem witness_ReturnsPopThePc : CanPop (faulting { State.reset with stack := [5] }) ∧ CanPop State.reset := by
  unfold CanPop; decide
theorem witness_ReturnFromEmptyStackFaults :
    (faulting State.reset).stack = [] ∧ (faulting State.reset).cfg.stackPolicy = .fault := by decide
theorem witness_TrisLoadsW : (0 : BitVec 3).toNat < 5 ∧ (4 : BitVec 3).toNat < 5 := by decide
theorem witness_DecodeOfEncode : Instr.wf (.tris 5) = true ∧ Instr.wf (.btfss 0x7F 7) = true := by decide
theorem witness_DecodedWordIsCanonicalButForDontCares : decode 0x017F = .ok .clrw ∧ decode 0x3FFF = .ok (.addlw 0xFF) := by
  decide
theorem witness_ReservedWordsAreThoseOfR106 :
    reservedWord 0x0001 = true ∧ reservedWord 0x0007 = true ∧ reservedWord 0x3BFF = true ∧
    reservedWord 0x0000 = false ∧ reservedWord 0x0008 = false ∧ reservedWord 0x3C00 = false := by decide
theorem witness_StepRunsTheDecodedInstruction :
    CoreRuns State.reset ∧ NoEntryDue State.reset ∧ fetch State.reset = some 0x3FFF ∧
    decode 0x3FFF = .ok (.addlw 0xFF) := by
  unfold CoreRuns NoEntryDue; decide
/-- A boundary given by the entry `run`; a reserved word at pc; PROG undefined at pc. -/
theorem witness_StepRunsTheDecodedInstruction_stops :
    let given := { State.reset with env := [.run, .intEdge true] }
    let reserved := { given with prog := [(0, 0x3B00)] }
    let absent := { given with cfg := { Config.p84 with erased := none } }
    (CoreRuns reserved ∧ NoEntryDue reserved ∧ fetch reserved = some 0x3B00 ∧
      decode 0x3B00 = .error (.reserved 0x3B00)) ∧
    CoreRuns absent ∧ NoEntryDue absent ∧ fetch absent = none := by
  unfold CoreRuns NoEntryDue; decide
/-- The two other ways in which no entry is due: just woken, and no request, each with GIE = 1. -/
theorem witness_StepRunsTheDecodedInstruction_enabled :
    NoEntryDue { State.reset with gie := true, justWoke := true } ∧ NoEntryDue { State.reset with gie := true } := by
  unfold NoEntryDue; decide
/-- A word to place; and a word at address 0 that 0x400 and 0x1C00 fetch too, 0x401 not, with address 1 unlisted. -/
theorem witness_PlacedWordRunsNext :
    let s := { State.reset with prog := progWrite Config.p84 [] 0x0400 0x0064 }
    (0x0064 < 2 ^ 14 ∧ decodeTableWord 14 0x0064 = some .clrwdt) ∧
    (s.prog = [(0, 0x0064)] ∧ fetch { s with pc := 0x1C00 } = some 0x0064 ∧ fetch { s with pc := 0x0401 } = some 0x3FFF) ∧
    ∀ w, (({ s with pc := 0x0401 } : State).pc.toNat % s.cfg.progWords, w) ∉ s.prog :=
  ⟨by decide, by decide, fun w => by simp [progWrite, writeCell, insertCell, Config.p84, State.reset]⟩
theorem witness_StepKeepsTheInvariant : State.reset.Inv = true ∧ ∃ u, step State.reset = .next u := ⟨by decide, _, rfl⟩
theorem witness_ProgramMemoryIsConstant : ∃ u, step State.reset = .next u := ⟨_, rfl⟩
/-- Each of the four, skipping a reserved word in a program of P84's 1024 words; and the same pc's around the wrap. -/
theorem witness_SkippedWordIsNeverDecoded :
    (CoreRuns (skipping 0x18A0 0) ∧ NoEntryDue (skipping 0x18A0 0) ∧ SkippedWordApart (skipping 0x18A0 0)) ∧
    (decode 0x18A0 = .ok (.btfsc 0x20 1) ∧ flowOf (skipping 0x18A0 0) = some 2) ∧
    (decode 0x1CA0 = .ok (.btfss 0x20 1) ∧ flowOf (skipping 0x1CA0 2) = some 2) ∧
    (decode 0x0BA0 = .ok (.decfsz 0x20 .f) ∧ flowOf (skipping 0x0BA0 1) = some 2) ∧
    (decode 0x0FA0 = .ok (.incfsz 0x20 .f) ∧ flowOf (skipping 0x0FA0 0xFF) = some 2) ∧
    (.incfsz 0x20 .f ∈ skipInstrs 0x20 .f 1 ∧ .btfsc 0x20 1 ∈ skipInstrs 0x20 .f 1) ∧
    SkippedWordApart { State.reset with pc := 0x1FFF } ∧ SkippedWordApart { State.reset with pc := 0x1FFE } := by
  unfold CoreRuns NoEntryDue SkippedWordApart; decide
theorem witness_OnlyClrwdtAndSleepWritePowerBits :
    (∃ u, exec (.movwf 0x03) State.reset = .next u) ∧ Instr.movwf 0x03 ≠ .clrwdt ∧ Instr.movwf 0x03 ≠ .sleep :=
  ⟨⟨_, rfl⟩, by decide, by decide⟩
theorem witness_OnlyCallAndReturnsUseTheStack :
    State.reset.cfg.fileMap = .p84 ∧ State.reset.cfg.psaTmr0 = .p84 ∧ (∀ k, Instr.nop ≠ .call k) ∧
    (∀ k, Instr.nop ≠ .retlw k) ∧ Instr.nop ≠ .ret ∧ Instr.nop ≠ .retfie :=
  ⟨rfl, rfl, fun _ => nofun, fun _ => nofun, by decide, by decide⟩
theorem witness_OnlySleepEntersSleepMode :
    (∃ u, exec .nop State.reset = .next u) ∧ ∃ u, exec .sleep State.reset = .next u := ⟨⟨_, rfl⟩, _, rfl⟩
/-- MOVWF lists no flag, and 0x20 is no status register. -/
theorem witness_UnlistedFlagsAreUnchanged :
    (∃ u, exec (.movwf 0x20) State.reset = .next u) ∧ ¬ WritesTarget (.movwf 0x20) State.reset .status ∧
    listsC (.movwf 0x20) = false ∧ listsDc (.movwf 0x20) = false ∧ listsZ (.movwf 0x20) = false :=
  ⟨⟨_, rfl⟩, fun ⟨_, h, ht⟩ => by cases h; revert ht; decide, rfl, rfl, rfl⟩
theorem witness_GieAndPclathChangeOnlyByTheirWrites :
    (∃ u, exec (.movwf 0x20) State.reset = .next u) ∧ Instr.movwf 0x20 ≠ .retfie ∧
    ¬ WritesTarget (.movwf 0x20) State.reset .intcon ∧ ¬ WritesTarget (.movwf 0x20) State.reset .pcLatch :=
  ⟨⟨_, rfl⟩, by decide, fun ⟨_, h, ht⟩ => by cases h; revert ht; decide, fun ⟨_, h, ht⟩ => by cases h; revert ht; decide⟩
/-- The cells next to the one written, and the last one of P84. -/
theorem witness_CellsChangeOnlyAsDestinations :
    (∃ u, exec (.movwf 0x20) State.reset = .next u) ∧ ¬ WritesTarget (.movwf 0x20) State.reset (.gpr 0x13) ∧
    ¬ WritesTarget (.movwf 0x20) State.reset (.gpr 0x43) :=
  ⟨⟨_, rfl⟩, fun ⟨_, h, ht⟩ => by cases h; revert ht; decide, fun ⟨_, h, ht⟩ => by cases h; revert ht; decide⟩
theorem witness_EveryInstructionCompletesUnderP84 :
    Instr.wf (.decfsz 0x20 .f) = true ∧ State.reset.cfg.stackPolicy = .circular ∧
    State.reset.cfg.unmapped = .readZero ∧
    ∀ f, (Instr.decfsz 0x20 .f = .decfsz f .f ∨ Instr.decfsz 0x20 .f = .incfsz f .f) → fileMap State.reset f ≠ .pcLow :=
  ⟨rfl, rfl, rfl, fun f h => by rcases h with h | h <;> cases h; decide⟩
/-- An enabled request with room on the stack, and with none. -/
theorem witness_InterruptEntry :
    let s := { State.reset with gie := true, intconLo := 0b0010010 }
    let full := faulting { s with stack := fullStack }
    (CoreRuns s ∧ s.gie = true ∧ s.justWoke = false ∧ irq s = true ∧ CanPush s) ∧
    CoreRuns full ∧ full.gie = true ∧ full.justWoke = false ∧ irq full = true ∧ ¬ CanPush full := by
  unfold CoreRuns CanPush; decide
theorem witness_NoEntryWhileMaskedOrJustWoken :
    let masked := { State.reset with intconLo := 0b0010010 }
    let woken := { masked with gie := true, justWoke := true }
    (CoreRuns masked ∧ masked.gie = false ∧ fetch masked = some 0x3FFF) ∧
    (CoreRuns woken ∧ woken.justWoke = true ∧ fetch woken = some 0x3FFF) ∧ decode 0x3FFF = .ok (.addlw 0xFF) := by
  unfold CoreRuns; decide
theorem witness_P84IrqIsFourSources : State.reset.cfg.irq = .p84 := rfl
/-- An empty stack with the pointer at the first slot, and the last free level with it at the last slot. -/
theorem witness_RetfieResumesTheInterruptedProgram :
    let s := { State.reset with gie := true, stack := [1, 2, 3, 4, 5, 6, 7], stale := [0], stackPtr := 7 }
    (s.gie = true ∧ s.stack.length < s.cfg.stackDepth ∧ s.stackPtr < s.cfg.stackDepth) ∧
    State.reset.stack.length < State.reset.cfg.stackDepth ∧ State.reset.stackPtr < State.reset.cfg.stackDepth := by decide
theorem witness_ReturnGoesOnAfterTheCall :
    let s := { State.reset with stack := [1, 2, 3, 4, 5, 6, 7], stale := [0], stackPtr := 7 }
    (s.stack.length < s.cfg.stackDepth ∧ s.stackPtr < s.cfg.stackDepth) ∧
    State.reset.stack.length < State.reset.cfg.stackDepth ∧ State.reset.stackPtr < State.reset.cfg.stackDepth := by decide
theorem witness_CircularStackNeverStops :
    let s := { State.reset with stack := fullStack, stale := [] }
    s.cfg.stackPolicy = .circular ∧ s.stack.length = s.cfg.stackDepth := by decide
theorem witness_SleepHoldsTheCore :
    (napping []).asleep = true ∧ (napping []).env = [] ∧ (napping [.run, .run]).env = .run :: [.run] := by decide
theorem witness_InterruptRequestsWakeTheCore :
    (napping []).asleep = true ∧ (napping []).cfg.irq = .p84 ∧ (napping []).cfg.wake = .p84 ∧
    (napping [.intEdge true]).env = .intEdge ((napping []).option.getLsbD 6) :: [] ∧
    (napping [.intEdge false]).env = .intEdge (!(napping []).option.getLsbD 6) :: [] ∧
    (napping [.portBChange]).env = .portBChange :: [] ∧ (napping [.eepromDone]).env = .eepromDone :: [] ∧
    (napping [.timer0Overflow]).env = .timer0Overflow :: [] := by decide
/-- Each event awake, at P84's OPTION of 0xFF, and EEIF's clearing both after software's write of 0 and without one. -/
theorem witness_EventsSetTheirFlagsWhileAwake :
    let at_ := fun (e : EnvEvent) => ({ State.reset with env := [e] } : State)
    let told := { at_ .eeifCleared with eeif := true, events := [.device .eecon1 0xEF] }
    (State.reset.asleep = false ∧ State.reset.cfg.irq = .p84) ∧
    (at_ (.intEdge true)).env = .intEdge ((at_ (.intEdge true)).option.getLsbD 6) :: [] ∧
    (at_ (.intEdge false)).env = .intEdge (!(at_ (.intEdge false)).option.getLsbD 6) :: [] ∧
    (at_ .portBChange).env = .portBChange :: [] ∧ (at_ .timer0Overflow).env = .timer0Overflow :: [] ∧
    (at_ .eepromDone).env = .eepromDone :: [] ∧
    (told.env = .eeifCleared :: [] ∧ SoftwareClearsEeif told) ∧
    ¬ SoftwareClearsEeif { told with eeifMark := 1 } :=
  ⟨by decide, by decide, by decide, by decide, by decide, by decide, ⟨by decide, 0xEF, by decide, by decide⟩,
    fun ⟨_, h, _⟩ => by simp at h⟩
/-- Each of the four cases: asleep, awake under either policy, and disabled. -/
theorem witness_WatchdogTimeout :
    let awake := { State.reset with env := [.wdtTimeout] }
    let again := { awake with cfg := { Config.p84 with wdtReset := .restart } }
    let off := { awake with cfg := { Config.p84 with wdtEnabled := false } }
    ((napping [.wdtTimeout]).cfg.wdtEnabled = true ∧ (napping [.wdtTimeout]).asleep = true) ∧
    (awake.cfg.wdtEnabled = true ∧ awake.asleep = false ∧ awake.cfg.wdtReset = .report) ∧
    (again.cfg.wdtEnabled = true ∧ again.asleep = false ∧ again.cfg.wdtReset = .restart) ∧
    (off.env = .wdtTimeout :: [] ∧ off.cfg.wdtEnabled = false) := by decide
/-- Asleep, awake, and under the policy that reports; the stack lists all its slots, the pointer at the last one. -/
theorem witness_MasterClearRestarts :
    let awake := { State.reset with env := [.masterClear], stack := [1, 2], stale := [3, 4, 5, 6, 7, 8], stackPtr := 7 }
    let told := { awake with cfg := { Config.p84 with masterClear := .report } }
    ((napping [.masterClear]).env = .masterClear :: [] ∧ (napping [.masterClear]).cfg.masterClear = .restart ∧
      (napping [.masterClear]).asleep = true) ∧
    (awake.env = .masterClear :: [] ∧ awake.cfg.masterClear = .restart ∧ awake.asleep = false) ∧
    (awake.stack.length + awake.stale.length = awake.cfg.stackDepth ∧ awake.stackPtr < awake.cfg.stackDepth) ∧
    (told.env = .masterClear :: [] ∧ told.cfg.masterClear = .report) := by decide
theorem witness_StatusImageReadAndWrite : State.reset.cfg.statusLayout.wf = true := by decide
/-- The first and last cells, the two ends of the hole, each bank, and FSR at INDF and past it. -/
theorem witness_P84FileMapTable :
    let bank1 := { State.reset with statusOther := 1, fsr := 0x0C }
    State.reset.cfg.fileMap = .p84 ∧ (0x0C : FileAddr).toNat = 0x0C ∧ (0x4F : FileAddr).toNat = 0x4F ∧
    (0x50 ≤ (0x7F : FileAddr).toNat ∨ (0x7F : FileAddr).toNat = 0x07) ∧ State.reset.statusOther.getLsbD 0 = false ∧
    bank1.statusOther.getLsbD 0 = true ∧ State.reset.fsr.extractLsb' 0 7 = 0 ∧ bank1.fsr.extractLsb' 0 7 ≠ 0 := by decide
/-- Port B with pin 7 an output, pin 6 an overdriven output and pin 0 an input; port A, whose bit 5 is unimplemented;
and no law of the pins. -/
theorem witness_PortReadModifyWrite :
    let s := { State.reset with tris := ⟨0x1F, 0x3F, 0x00⟩, overdrive := ⟨0x00, 0x40, 0x00⟩ }
    let free := { s with cfg := { Config.p84 with pins := .unconstrained } }
    (fileMap s 0x06 = .port .p6 ∧ s.cfg.pins = .p84 ∧ (s.cfg.portBits.get .p6).getLsbD 7 = true ∧
      (s.tris.get .p6).getLsbD 7 = false ∧ (s.overdrive.get .p6).getLsbD 7 = false) ∧
    ((s.cfg.portBits.get .p6).getLsbD 6 = true ∧ (s.overdrive.get .p6).getLsbD 6 = true) ∧
    ((s.cfg.portBits.get .p6).getLsbD 0 = true ∧ (s.tris.get .p6).getLsbD 0 = true) ∧
    (fileMap s 0x05 = .port .p5 ∧ (s.cfg.portBits.get .p5).getLsbD 5 = false) ∧
    (fileMap free 0x06 = .port .p6 ∧ free.cfg.pins = .unconstrained) := by decide
/-- Both values of P84's PSA bit. -/
theorem witness_ClrwdtAndSleepClearTheWatchdog :
    State.reset.cfg.psaTmr0 = .p84 ∧ psaTmr0 State.reset = false ∧ psaTmr0 { State.reset with option := 0xF7 } = true := by
  decide
end Sys2Proof.Tests
end

namespace Sys2Proof.Machine

/-! ## The forms of the instructions -/

/-- The result lists exactly the flags that R32's table lists for the instruction. -/
structure ListsFlagsOf (i : Instr) (o : AluOut) : Prop where
  c : o.c.isSome = listsC i
  dc : o.dc.isSome = listsDc i
  z : o.z.isSome = listsZ i

/-- The 37 instructions by the template their meaning is one line over (R130, R170, R180): a computation `alu` of the
byte and literal templates sees W, C and the operand alone. The instructions of no template stand by themselves. -/
inductive InstrForm : Instr → Prop where
  | byte {i : Instr} (f : FileAddr) (d : Dest) (alu : Byte → Bool → Byte → AluOut)
      (exec_eq : ∀ s, exec i s = byteOp f d (alu s.w s.c) s) (operand : writeOperand i = some (f, d))
      (flags : ∀ w c a, ListsFlagsOf i (alu w c a)) : InstrForm i
  | skip {i : Instr} (f : FileAddr) (d : Dest) (g : Byte → Byte)
      (exec_eq : ∀ s, exec i s = skipOp f d g s) (operand : writeOperand i = some (f, d)) : InstrForm i
  | test {i : Instr} (f : FileAddr) (b : BitVec 3) (on : Bool)
      (exec_eq : ∀ s, exec i s = testOp f b on s) : InstrForm i
  | literal {i : Instr} (alu : Byte → AluOut)
      (exec_eq : ∀ s, exec i s = literalOp (alu s.w) s) (flags : ∀ w, ListsFlagsOf i (alu w)) : InstrForm i
  | nop : InstrForm .nop
  | goto (k : BitVec 11) : InstrForm (.goto k)
  | clrwdt : InstrForm .clrwdt
  | sleep : InstrForm .sleep
  | option : InstrForm .option
  | tris (f : BitVec 3) : InstrForm (.tris f)
  | call (k : BitVec 11) : InstrForm (.call k)
  | ret : InstrForm .ret
  | retlw (k : Byte) : InstrForm (.retlw k)
  | retfie : InstrForm .retfie

/-- Every instruction has its form. -/
theorem instrForm (i : Instr) : InstrForm i := by
  cases i with
  | addwf f d => exact .byte f d (fun w _ a => add8 w a) (exec_addwf f d) rfl fun _ _ _ => ⟨rfl, rfl, rfl⟩
  | andwf f d => exact .byte f d (fun w _ a => withZ (w &&& a)) (exec_andwf f d) rfl fun _ _ _ => ⟨rfl, rfl, rfl⟩
  | clrf f =>
    exact .byte f .f (fun _ _ _ => { r := 0x00, z := some true }) (exec_clrf f) rfl fun _ _ _ => ⟨rfl, rfl, rfl⟩
  | clrw => exact .literal (fun _ => { r := 0x00, z := some true }) exec_clrw fun _ => ⟨rfl, rfl, rfl⟩
  | comf f d => exact .byte f d (fun _ _ a => withZ (~~~a)) (exec_comf f d) rfl fun _ _ _ => ⟨rfl, rfl, rfl⟩
  | decf f d => exact .byte f d (fun _ _ a => withZ (a - 1)) (exec_decf f d) rfl fun _ _ _ => ⟨rfl, rfl, rfl⟩
  | decfsz f d => exact .skip f d (fun a => a - 1) (exec_decfsz f d) rfl
  | incf f d => exact .byte f d (fun _ _ a => withZ (a + 1)) (exec_incf f d) rfl fun _ _ _ => ⟨rfl, rfl, rfl⟩
  | incfsz f d => exact .skip f d (fun a => a + 1) (exec_incfsz f d) rfl
  | iorwf f d => exact .byte f d (fun w _ a => withZ (w ||| a)) (exec_iorwf f d) rfl fun _ _ _ => ⟨rfl, rfl, rfl⟩
  | movf f d => exact .byte f d (fun _ _ a => withZ a) (exec_movf f d) rfl fun _ _ _ => ⟨rfl, rfl, rfl⟩
  | movwf f => exact .byte f .f (fun w _ _ => noFlags w) (exec_movwf f) rfl fun _ _ _ => ⟨rfl, rfl, rfl⟩
  | nop => exact .nop
  | rlf f d => exact .byte f d (fun _ c a => rotateLeft a c) (exec_rlf f d) rfl fun _ _ _ => ⟨rfl, rfl, rfl⟩
  | rrf f d => exact .byte f d (fun _ c a => rotateRight a c) (exec_rrf f d) rfl fun _ _ _ => ⟨rfl, rfl, rfl⟩
  | subwf f d => exact .byte f d (fun w _ a => sub8 a w) (exec_subwf f d) rfl fun _ _ _ => ⟨rfl, rfl, rfl⟩
  | swapf f d =>
    exact .byte f d (fun _ _ a => noFlags (swapNibbles a)) (exec_swapf f d) rfl fun _ _ _ => ⟨rfl, rfl, rfl⟩
  | xorwf f d => exact .byte f d (fun w _ a => withZ (w ^^^ a)) (exec_xorwf f d) rfl fun _ _ _ => ⟨rfl, rfl, rfl⟩
  | bcf f b =>
    exact .byte f .f (fun _ _ a => noFlags (clearBit a b)) (exec_bcf f b) rfl fun _ _ _ => ⟨rfl, rfl, rfl⟩
  | bsf f b => exact .byte f .f (fun _ _ a => noFlags (setBit a b)) (exec_bsf f b) rfl fun _ _ _ => ⟨rfl, rfl, rfl⟩
  | btfsc f b => exact .test f b false (exec_btfsc f b)
  | btfss f b => exact .test f b true (exec_btfss f b)
  | addlw k => exact .literal (fun w => add8 w k) (exec_addlw k) fun _ => ⟨rfl, rfl, rfl⟩
  | andlw k => exact .literal (fun w => withZ (w &&& k)) (exec_andlw k) fun _ => ⟨rfl, rfl, rfl⟩
  | call k => exact .call k
  | clrwdt => exact .clrwdt
  | goto k => exact .goto k
  | iorlw k => exact .literal (fun w => withZ (w ||| k)) (exec_iorlw k) fun _ => ⟨rfl, rfl, rfl⟩
  | movlw k => exact .literal (fun _ => noFlags k) (exec_movlw k) fun _ => ⟨rfl, rfl, rfl⟩
  | retfie => exact .retfie
  | retlw k => exact .retlw k
  | ret => exact .ret
  | sleep => exact .sleep
  | sublw k => exact .literal (fun w => sub8 k w) (exec_sublw k) fun _ => ⟨rfl, rfl, rfl⟩
  | xorlw k => exact .literal (fun w => withZ (w ^^^ k)) (exec_xorlw k) fun _ => ⟨rfl, rfl, rfl⟩
  | option => exact .option
  | tris f => exact .tris f

/-! ## What the templates leave unchanged -/

/-- The part of the state that no file register access and no result reaches: TO and PD, the WDT count, SLEEP mode, the
stack, and the arguments of the step; the cells change, but stay in canonical form. -/
structure TemplateFrame (s u : State) : Prop where
  toBit : u.toBit = s.toBit
  pdBit : u.pdBit = s.pdBit
  wdt : u.wdt = s.wdt
  asleep : u.asleep = s.asleep
  stack : u.stack = s.stack
  stale : u.stale = s.stale
  stackPtr : u.stackPtr = s.stackPtr
  prog : u.prog = s.prog
  cfg : u.cfg = s.cfg
  gpr_wf : s.gpr.wf = true → u.gpr.wf = true

section
variable {s u v : State} {f : FileAddr} {d : Dest} {t : Target}

theorem TemplateFrame.trans (h : TemplateFrame s u) (h' : TemplateFrame u v) : TemplateFrame s v where
  toBit := h'.toBit.trans h.toBit
  pdBit := h'.pdBit.trans h.pdBit
  wdt := h'.wdt.trans h.wdt
  asleep := h'.asleep.trans h.asleep
  stack := h'.stack.trans h.stack
  stale := h'.stale.trans h.stale
  stackPtr := h'.stackPtr.trans h.stackPtr
  prog := h'.prog.trans h.prog
  cfg := h'.cfg.trans h.cfg
  gpr_wf := fun h₀ => h'.gpr_wf (h.gpr_wf h₀)

theorem setW_frame (r : Byte) (s : State) : TemplateFrame s (setW r s) :=
  ⟨rfl, rfl, rfl, rfl, rfl, rfl, rfl, rfl, rfl, id⟩

theorem setFlags_frame (o : AluOut) (s : State) : TemplateFrame s (setFlags o s) :=
  ⟨rfl, rfl, rfl, rfl, rfl, rfl, rfl, rfl, rfl, id⟩

theorem jumpTo_frame (a : ProgAddr) (s : State) : TemplateFrame s (jumpTo a s) :=
  ⟨rfl, rfl, rfl, rfl, rfl, rfl, rfl, rfl, rfl, id⟩

theorem nextInstr_frame (s : State) : TemplateFrame s (nextInstr s) :=
  ⟨rfl, rfl, rfl, rfl, rfl, rfl, rfl, rfl, rfl, id⟩

theorem skipInstr_frame (s : State) : TemplateFrame s (skipInstr s) :=
  ⟨rfl, rfl, rfl, rfl, rfl, rfl, rfl, rfl, rfl, id⟩

theorem afterRead_frame (t : Target) (s : State) : TemplateFrame s (afterRead t s) := by
  constructor <;> simp

theorem finish_frame (t : Target) (d : Dest) (s : State) : TemplateFrame s (finish t d s) := by
  constructor <;> simp

theorem writeTarget_gpr_wf (t : Target) (r : Byte) (h : s.gpr.wf = true) : (writeTarget t r s).gpr.wf = true := by
  rw [writeTarget_gpr]
  cases t with
  | gpr i => exact memory_wf_write i r h
  | _ => exact h

theorem writeDest_frame (t : Target) (d : Dest) (r : Byte) (s : State) : TemplateFrame s (writeDest t d r s) := by
  cases d with
  | w => exact setW_frame r s
  | f => constructor <;> simp +contextual [writeTarget_gpr_wf]

theorem byteOp_frame {alu : Byte → AluOut} (h : byteOp f d alu s = .next u) : TemplateFrame s u := by
  obtain ⟨t, -, rfl⟩ := byteOp_cases h
  exact (afterRead_frame t s).trans <| (writeDest_frame t d _ _).trans <|
    (setFlags_frame _ _).trans (finish_frame t d _)

theorem skipOp_frame {g : Byte → Byte} (h : skipOp f d g s = .next u) : TemplateFrame s u := by
  obtain ⟨t, -, -, rfl⟩ := skipOp_cases h
  have hw := (afterRead_frame t s).trans (writeDest_frame t d (g (readValue t s)) _)
  split
  · exact hw.trans (skipInstr_frame _)
  · exact hw.trans (nextInstr_frame _)

theorem testOp_frame {b : BitVec 3} {on : Bool} (h : testOp f b on s = .next u) : TemplateFrame s u := by
  obtain ⟨t, -, rfl | rfl⟩ := testOp_cases h
  · exact (afterRead_frame t s).trans (skipInstr_frame _)
  · exact (afterRead_frame t s).trans (nextInstr_frame _)

theorem literalOp_cases {o : AluOut} (h : literalOp o s = .next u) : u = nextInstr (setFlags o (setW o.r s)) := by
  simpa [literalOp] using h.symm

theorem literalOp_frame {o : AluOut} (h : literalOp o s = .next u) : TemplateFrame s u := by
  obtain rfl := literalOp_cases h
  exact (setW_frame o.r s).trans <| (setFlags_frame o _).trans (nextInstr_frame _)

theorem execTris_cases {n : BitVec 3} (h : execTris n s = .next u) :
    ∃ p, trisPort n = some p ∧ u = nextInstr { s with tris := s.tris.set p s.w } := by
  unfold execTris at h
  cases hp : trisPort n with
  | none => simp [hp] at h
  | some p => exact ⟨p, rfl, by simpa [hp] using h.symm⟩

theorem execTris_frame {n : BitVec 3} (h : execTris n s = .next u) : TemplateFrame s u := by
  obtain ⟨p, -, rfl⟩ := execTris_cases h
  exact ⟨rfl, rfl, rfl, rfl, rfl, rfl, rfl, rfl, rfl, id⟩

/-- All that CALL can do when it does not overflow (R183). -/
theorem execCall_cases {k : BitVec 11} (h : execCall k s = .next u) :
    ∃ s', push (s.pc + 1) s = .ok s' ∧ u = jumpTo (pageTarget s k) s' := by
  unfold execCall at h
  split at h
  · cases h
  · rename_i s' hp
    exact ⟨s', hp, by simpa using h.symm⟩

/-- A push changes the stack, its stale slots and its pointer alone (R30, R69). -/
theorem push_changes {a : ProgAddr} (h : push a s = .ok u) :
    ∃ st sl p, u = { s with stack := st, stale := sl, stackPtr := p } := by
  obtain ⟨-, -, rfl⟩ | ⟨-, -, rfl⟩ | ⟨-, -, rfl⟩ := push_cases h <;> exact ⟨_, _, _, rfl⟩

/-- A pop changes the stack, its stale slots and its pointer, and may take a draw (R31, R69, log 10). -/
theorem pop_changes {a : ProgAddr} (h : pop s = .ok (a, u)) :
    ∃ st sl p n, u = { s with stack := st, stale := sl, stackPtr := p, draws := n } := by
  obtain ⟨_, -, -, rfl⟩ | ⟨_, -, -, rfl⟩ | ⟨_, -, -, -, rfl⟩ | ⟨-, -, -, -, rfl⟩ := pop_cases h <;>
    exact ⟨_, _, _, _, rfl⟩

end

/-! ## The invariant of every step -/

/-- The part of `State.Inv` about the stack (R20, R69): no more entries than levels, the pointer at a slot, and every
slot of a circular stack listed. -/
structure StackInv (s : State) : Prop where
  fits : s.stack.length ≤ s.cfg.stackDepth
  pointer : s.stackPtr < s.cfg.stackDepth
  listed : s.cfg.stackPolicy = .fault ∨ s.stack.length + s.stale.length = s.cfg.stackDepth

theorem inv_iff (s : State) :
    s.Inv = true ↔ s.cfg.wf = true ∧ s.gpr.wf = true ∧ ProgMem.wf s.cfg s.prog = true ∧ StackInv s := by
  simp only [State.Inv, Bool.and_eq_true, Bool.or_eq_true, decide_eq_true_eq]
  constructor
  · rintro ⟨⟨⟨⟨⟨hcfg, hgpr⟩, hprog⟩, hfits⟩, hptr⟩, hlisted⟩
    exact ⟨hcfg, hgpr, hprog, hfits, hptr, hlisted⟩
  · rintro ⟨hcfg, hgpr, hprog, hfits, hptr, hlisted⟩
    exact ⟨⟨⟨⟨⟨hcfg, hgpr⟩, hprog⟩, hfits⟩, hptr⟩, hlisted⟩

section
variable {s u : State}

/-- A change of the stack alone keeps the invariant where it keeps the stack's part. -/
theorem inv_of_stackInv (hs : s.Inv = true) (hcfg : u.cfg = s.cfg) (hprog : u.prog = s.prog) (hgpr : u.gpr = s.gpr)
    (hu : StackInv u) : u.Inv = true := by
  obtain ⟨hc, hg, hp, -⟩ := (inv_iff s).1 hs
  exact (inv_iff u).2 ⟨by rwa [hcfg], by rwa [hgpr], by rwa [hcfg, hprog], hu⟩

theorem TemplateFrame.inv (h : TemplateFrame s u) (hs : s.Inv = true) : u.Inv = true := by
  obtain ⟨hc, hg, hp, hfits, hptr, hlisted⟩ := (inv_iff s).1 hs
  refine (inv_iff u).2 ⟨by rwa [h.cfg], h.gpr_wf hg, by rwa [h.cfg, h.prog], ?_, ?_, ?_⟩
  · rwa [h.cfg, h.stack]
  · rwa [h.cfg, h.stackPtr]
  · rwa [h.cfg, h.stack, h.stale]

theorem push_stackInv {a : ProgAddr} (hs : StackInv s) (h : push a s = .ok u) : StackInv u := by
  obtain ⟨hfits, hptr, hlisted⟩ := hs
  have hup : ptrUp s < s.cfg.stackDepth := ptrUp_lt (by omega)
  obtain ⟨hp, hroom, rfl⟩ | ⟨hp, hroom, rfl⟩ | ⟨hp, hfull, rfl⟩ := push_cases h
  · exact ⟨hroom, hup, .inl hp⟩
  · have hsum : s.stack.length + s.stale.length = s.cfg.stackDepth := hlisted.resolve_left (by simp [hp])
    exact ⟨hroom, hup, .inr (by simp; omega)⟩
  · have hsum : s.stack.length + s.stale.length = s.cfg.stackDepth := hlisted.resolve_left (by simp [hp])
    exact ⟨by simp; omega, hup, .inr (by simp; omega)⟩

theorem pop_stackInv {a : ProgAddr} (hs : StackInv s) (h : pop s = .ok (a, u)) : StackInv u := by
  obtain ⟨hfits, hptr, hlisted⟩ := hs
  have hdown : ptrDown s < s.cfg.stackDepth := ptrDown_lt (by omega)
  obtain ⟨rest, hp, hst, rfl⟩ | ⟨rest, hp, hst, rfl⟩ | ⟨rest, hp, hst, hsl, rfl⟩ | ⟨hp, hst, hsl, -, rfl⟩ := pop_cases h
  · rw [hst, List.length_cons] at hfits
    exact ⟨Nat.le_of_succ_le hfits, hdown, .inl hp⟩
  · have hsum := hlisted.resolve_left (by simp [hp])
    rw [hst, List.length_cons] at hfits hsum
    exact ⟨Nat.le_of_succ_le hfits, hdown, .inr (by simp; omega)⟩
  · have hsum := hlisted.resolve_left (by simp [hp])
    rw [hsl, List.length_cons] at hsum
    exact ⟨hfits, hdown, .inr (by simp; omega)⟩
  · exact ⟨hfits, hdown, hlisted⟩

theorem push_inv {a : ProgAddr} (hs : s.Inv = true) (h : push a s = .ok u) : u.Inv = true := by
  obtain ⟨-, -, -, hstack⟩ := (inv_iff s).1 hs
  have hu := push_stackInv hstack h
  obtain ⟨st, sl, p, rfl⟩ := push_changes h
  exact inv_of_stackInv hs rfl rfl rfl hu

theorem pop_inv {a : ProgAddr} (hs : s.Inv = true) (h : pop s = .ok (a, u)) : u.Inv = true := by
  obtain ⟨-, -, -, hstack⟩ := (inv_iff s).1 hs
  have hu := pop_stackInv hstack h
  obtain ⟨st, sl, p, n, rfl⟩ := pop_changes h
  exact inv_of_stackInv hs rfl rfl rfl hu

theorem popPc_inv (hs : s.Inv = true) (h : popPc s = .next u) : u.Inv = true := by
  obtain ⟨a, v, hpop, rfl⟩ := popPc_cases h
  exact (jumpTo_frame a v).inv (pop_inv hs hpop)

theorem enterInterrupt_inv (hs : s.Inv = true) (h : enterInterrupt s = .next u) : u.Inv = true := by
  obtain ⟨v, hpush, rfl⟩ := enterInterrupt_cases h
  exact push_inv (u := v) hs hpush

/-- Every instruction keeps the invariant. -/
theorem exec_inv {i : Instr} (hs : s.Inv = true) (h : exec i s = .next u) : u.Inv = true := by
  cases instrForm i with
  | byte f d alu exec_eq => exact (byteOp_frame (exec_eq s ▸ h)).inv hs
  | skip f d g exec_eq => exact (skipOp_frame (exec_eq s ▸ h)).inv hs
  | test f b on exec_eq => exact (testOp_frame (exec_eq s ▸ h)).inv hs
  | literal alu exec_eq => exact (literalOp_frame (exec_eq s ▸ h)).inv hs
  | nop | goto | clrwdt | sleep | option => cases h; exact hs
  | tris n => exact (execTris_frame h).inv hs
  | call k =>
    obtain ⟨v, hpush, rfl⟩ := execCall_cases h
    exact (jumpTo_frame _ v).inv (push_inv hs hpush)
  | ret => exact popPc_inv hs h
  | retlw k => exact popPc_inv ((setW_frame k s).inv hs) h
  | retfie =>
    obtain ⟨a, v, hpop, rfl⟩ := returnFromInterrupt_cases h
    exact pop_inv (u := v) hs hpop

/-- A reset in the middle of a run keeps the invariant: it empties the stack and keeps its slots (R251, R252). -/
theorem restart_inv (to' pd : Bool) (hs : s.Inv = true) : (restart to' pd s).Inv = true := by
  obtain ⟨-, -, -, hfits, hptr, hlisted⟩ := (inv_iff s).1 hs
  exact inv_of_stackInv hs rfl rfl rfl ⟨by simp, by simp; omega, by simpa using hlisted⟩

theorem setRequest_inv (e : EnvEvent) (hs : s.Inv = true) : (setRequest e s).Inv = true := by
  obtain h | ⟨b, h⟩ | ⟨b, n, h⟩ := setRequest_cases e s <;> rw [h] <;> exact hs

theorem wakeIf_inv (b : Bool) (hs : s.Inv = true) : (wakeIf b s).Inv = true := by
  obtain h | ⟨-, -, h⟩ := wakeIf_cases b s <;> rw [h] <;> exact hs

/-- Every event of the environment keeps the invariant. -/
theorem applyEvent_inv {e : EnvEvent} (hs : s.Inv = true) (h : applyEvent e s = .next u) : u.Inv = true := by
  obtain ⟨-, hwdt⟩ | ⟨-, hclear⟩ | ⟨v, rfl, hv⟩ := applyEvent_cases h
  · obtain ⟨-, rfl⟩ | ⟨-, -, rfl⟩ | ⟨-, -, -, rfl⟩ := wdtTimeout_cases hwdt
    · exact hs
    · exact hs
    · exact restart_inv false true hs
  · obtain ⟨-, ⟨-, rfl⟩ | ⟨-, rfl⟩⟩ := masterClear_cases hclear <;> exact restart_inv _ _ hs
  · apply wakeIf_inv
    obtain rfl | ⟨wdt, psc, rfl⟩ | ⟨p, mask, rfl⟩ := hv
    · exact setRequest_inv e hs
    · exact hs
    · exact hs

theorem afterIrq_inv (hs : s.Inv = true) : (afterIrq s).Inv = true := by
  obtain h | h := afterIrq_cases s <;> rw [h] <;> exact hs

theorem runInstr_inv (hs : s.Inv = true) (h : runInstr s = .next u) : u.Inv = true := by
  obtain ⟨w, i, -, -, hexec⟩ := runInstr_cases h
  exact exec_inv (s := { s with justWoke := false }) hs hexec

theorem boundary_inv (hs : s.Inv = true) (h : boundary s = .next u) : u.Inv = true := by
  obtain ⟨-, rfl⟩ | ⟨-, -, -, henter⟩ | ⟨-, -, -, hrun⟩ | ⟨-, -, hrun⟩ := boundary_cases h
  · exact hs
  · exact enterInterrupt_inv (afterIrq_inv hs) henter
  · exact runInstr_inv (afterIrq_inv hs) hrun
  · exact runInstr_inv hs hrun

end

/-- Settles O33: by the inversion of `step`, one lemma for each thing a step can be. -/
theorem stepKeepsTheInvariant : Obligations.StepKeepsTheInvariant := by
  intro s u hs h
  obtain ⟨e, rest, -, -, hevent⟩ | ⟨rest, -, hrun⟩ | ⟨-, hrun⟩ := step_cases h
  · exact applyEvent_inv (s := { s with env := rest }) hs hevent
  · exact boundary_inv (s := { s with env := rest }) hs hrun
  · exact boundary_inv hs hrun

/-- Settles O34: P84's configuration is one of a machine, both stores are empty, and all eight slots are listed. -/
theorem invariantAtReset : Obligations.InvariantAtReset := by
  refine (inv_iff _).2 ⟨?_, reset_memory_wf, reset_prog_wf, ?_, ?_, .inr rfl⟩ <;> decide

end Sys2Proof.Machine

namespace Sys2Proof.Machine

/-! ## What every instruction leaves unchanged -/

/-- What instruction `i` leaves unchanged: the arguments of the step always, TO, PD and the WDT count unless it is CLRWDT
or SLEEP, and SLEEP mode unless it is SLEEP. -/
structure InstrFrame (i : Instr) (s u : State) : Prop where
  prog : u.prog = s.prog
  cfg : u.cfg = s.cfg
  powerBits : i ≠ .clrwdt → i ≠ .sleep → u.toBit = s.toBit ∧ u.pdBit = s.pdBit
  wdt : i ≠ .clrwdt → i ≠ .sleep → u.wdt = s.wdt
  asleep : i ≠ .sleep → u.asleep = s.asleep

section
variable {i : Instr} {s u : State} {f : FileAddr} {d : Dest} {t : Target}

theorem TemplateFrame.instrFrame (h : TemplateFrame s u) : InstrFrame i s u :=
  ⟨h.prog, h.cfg, fun _ _ => ⟨h.toBit, h.pdBit⟩, fun _ _ => h.wdt, fun _ => h.asleep⟩

theorem popPc_instrFrame (h : popPc s = .next u) : InstrFrame i s u := by
  obtain ⟨a, v, hpop, rfl⟩ := popPc_cases h
  obtain ⟨st, sl, p, n, rfl⟩ := pop_changes hpop
  exact ⟨rfl, rfl, fun _ _ => ⟨rfl, rfl⟩, fun _ _ => rfl, fun _ => rfl⟩

theorem exec_instrFrame (h : exec i s = .next u) : InstrFrame i s u := by
  cases instrForm i with
  | byte f d alu exec_eq => exact (byteOp_frame (exec_eq s ▸ h)).instrFrame
  | skip f d g exec_eq => exact (skipOp_frame (exec_eq s ▸ h)).instrFrame
  | test f b on exec_eq => exact (testOp_frame (exec_eq s ▸ h)).instrFrame
  | literal alu exec_eq => exact (literalOp_frame (exec_eq s ▸ h)).instrFrame
  | tris n => exact (execTris_frame h).instrFrame
  | nop | goto | option => cases h; exact ⟨rfl, rfl, fun _ _ => ⟨rfl, rfl⟩, fun _ _ => rfl, fun _ => rfl⟩
  | clrwdt => cases h; exact ⟨rfl, rfl, fun hne => absurd rfl hne, fun hne => absurd rfl hne, fun _ => rfl⟩
  | sleep =>
    cases h
    exact ⟨rfl, rfl, fun _ hne => absurd rfl hne, fun _ hne => absurd rfl hne, fun hne => absurd rfl hne⟩
  | call k =>
    obtain ⟨v, hpush, rfl⟩ := execCall_cases h
    obtain ⟨st, sl, p, rfl⟩ := push_changes hpush
    exact ⟨rfl, rfl, fun _ _ => ⟨rfl, rfl⟩, fun _ _ => rfl, fun _ => rfl⟩
  | ret => exact popPc_instrFrame h
  | retlw k =>
    have hf := popPc_instrFrame (i := .retlw k) h
    exact ⟨hf.prog, hf.cfg, hf.powerBits, hf.wdt, hf.asleep⟩
  | retfie =>
    obtain ⟨a, v, hpop, rfl⟩ := returnFromInterrupt_cases h
    obtain ⟨st, sl, p, n, rfl⟩ := pop_changes hpop
    exact ⟨rfl, rfl, fun _ _ => ⟨rfl, rfl⟩, fun _ _ => rfl, fun _ => rfl⟩

end

/-- Settles O38, as a part of the frame of every instruction. -/
theorem onlyClrwdtAndSleepWritePowerBits : Obligations.OnlyClrwdtAndSleepWritePowerBits :=
  fun _ _ _ h => (exec_instrFrame h).powerBits

/-- Settles O40: the frame of every instruction, and SLEEP's own effect. -/
theorem onlySleepEntersSleepMode : Obligations.OnlySleepEntersSleepMode := by
  intro i s u h
  have hf := exec_instrFrame h
  refine ⟨hf.wdt, hf.asleep, ?_⟩
  rintro rfl
  rw [exec_sleep] at h
  cases h
  rfl

/-! ## The flags an instruction does not list -/

/-- C, DC and Z are as they were. -/
structure FlagsKept (s u : State) : Prop where
  c : u.c = s.c
  dc : u.dc = s.dc
  z : u.z = s.z

/-- C, DC and Z each take the value `o` lists, or are as they were. -/
structure FlagsFrom (o : AluOut) (s u : State) : Prop where
  c : u.c = o.c.getD s.c
  dc : u.dc = o.dc.getD s.dc
  z : u.z = o.z.getD s.z

/-- The flags that instruction `i` does not list are as they were (R32). -/
def UnlistedKept (i : Instr) (s u : State) : Prop :=
  (listsC i = false → u.c = s.c) ∧ (listsDc i = false → u.dc = s.dc) ∧ (listsZ i = false → u.z = s.z)

section
variable {i : Instr} {s u : State} {f : FileAddr} {d : Dest} {t : Target}

theorem FlagsKept.unlistedKept (h : FlagsKept s u) : UnlistedKept i s u := ⟨fun _ => h.c, fun _ => h.dc, fun _ => h.z⟩

theorem getD_of_unlisted {o : Option Bool} {listed old : Bool} (h : o.isSome = listed) (hl : listed = false) :
    o.getD old = old := by
  obtain rfl : o = none := by simpa [hl] using h
  rfl

theorem FlagsFrom.unlistedKept {o : AluOut} (h : FlagsFrom o s u) (ho : ListsFlagsOf i o) : UnlistedKept i s u :=
  ⟨fun hl => h.c.trans (getD_of_unlisted ho.c hl), fun hl => h.dc.trans (getD_of_unlisted ho.dc hl),
    fun hl => h.z.trans (getD_of_unlisted ho.z hl)⟩

theorem fileTarget_ok (h : fileTarget s f = .ok t) : t = fileMap s f := by
  obtain ⟨hok, -⟩ | ⟨herr, -⟩ := fileTarget_cases s f
  · simpa [hok, eq_comm] using h
  · simp [herr] at h

/-- Of the destinations only the status image holds the flags (R43). -/
theorem writeDest_flagsKept {r : Byte} (h : ¬ (d = .f ∧ t = .status)) :
    FlagsKept s (writeDest t d r (afterRead t s)) := by
  cases d with
  | w => constructor <;> simp
  | f =>
    have ht : t ≠ .status := fun ht => h ⟨rfl, ht⟩
    constructor <;> simp [writeTarget_c, writeTarget_dc, writeTarget_z, ht]

theorem byteOp_flagsFrom {alu : Byte → AluOut} (h : byteOp f d alu s = .next u)
    (hd : ¬ (d = .f ∧ fileMap s f = .status)) : ∃ a, FlagsFrom (alu a) s u := by
  obtain ⟨t, ht, rfl⟩ := byteOp_cases h
  obtain ⟨hc, hdc, hz⟩ := writeDest_flagsKept (s := s) (r := (alu (readValue t s)).r) (fileTarget_ok ht ▸ hd)
  exact ⟨readValue t s, by simp [hc], by simp [hdc], by simp [hz]⟩

theorem skipOp_flagsKept {g : Byte → Byte} (h : skipOp f d g s = .next u)
    (hd : ¬ (d = .f ∧ fileMap s f = .status)) : FlagsKept s u := by
  obtain ⟨t, ht, -, rfl⟩ := skipOp_cases h
  obtain ⟨hc, hdc, hz⟩ := writeDest_flagsKept (s := s) (r := g (readValue t s)) (fileTarget_ok ht ▸ hd)
  split <;> exact ⟨hc, hdc, hz⟩

theorem testOp_flagsKept {b : BitVec 3} {on : Bool} (h : testOp f b on s = .next u) : FlagsKept s u := by
  obtain ⟨t, -, rfl | rfl⟩ := testOp_cases h <;> constructor <;> simp

theorem popPc_flagsKept (h : popPc s = .next u) : FlagsKept s u := by
  obtain ⟨a, v, hpop, rfl⟩ := popPc_cases h
  obtain ⟨st, sl, p, n, rfl⟩ := pop_changes hpop
  exact ⟨rfl, rfl, rfl⟩

end

/-- Settles O41: of the templates only R130's and the literal one set flags, those their result lists; the destination
holds flags only as the status image. -/
theorem unlistedFlagsAreUnchanged : Obligations.UnlistedFlagsAreUnchanged := by
  intro i s u h hstatus
  show UnlistedKept i s u
  have hdest : ∀ f d, writeOperand i = some (f, d) → ¬ (d = .f ∧ fileMap s f = .status) := by
    rintro f d hop ⟨rfl, hmap⟩
    exact hstatus ⟨f, hop, hmap⟩
  cases instrForm i with
  | byte f d alu exec_eq operand flags =>
    obtain ⟨a, ha⟩ := byteOp_flagsFrom (exec_eq s ▸ h) (hdest f d operand)
    exact ha.unlistedKept (flags _ _ a)
  | skip f d g exec_eq operand => exact (skipOp_flagsKept (exec_eq s ▸ h) (hdest f d operand)).unlistedKept
  | test f b on exec_eq => exact (testOp_flagsKept (exec_eq s ▸ h)).unlistedKept
  | literal alu exec_eq flags =>
    obtain rfl := literalOp_cases (exec_eq s ▸ h)
    exact FlagsFrom.unlistedKept ⟨rfl, rfl, rfl⟩ (flags s.w)
  | tris n =>
    obtain ⟨p, -, rfl⟩ := execTris_cases h
    exact FlagsKept.unlistedKept ⟨rfl, rfl, rfl⟩
  | nop | goto | clrwdt | sleep | option => cases h; exact FlagsKept.unlistedKept ⟨rfl, rfl, rfl⟩
  | call k =>
    obtain ⟨v, hpush, rfl⟩ := execCall_cases h
    obtain ⟨st, sl, p, rfl⟩ := push_changes hpush
    exact FlagsKept.unlistedKept ⟨rfl, rfl, rfl⟩
  | ret => exact (popPc_flagsKept h).unlistedKept
  | retlw k =>
    obtain ⟨hc, hdc, hz⟩ := popPc_flagsKept (s := setW k s) h
    exact FlagsKept.unlistedKept ⟨hc, hdc, hz⟩
  | retfie =>
    obtain ⟨a, v, hpop, rfl⟩ := returnFromInterrupt_cases h
    obtain ⟨st, sl, p, n, rfl⟩ := pop_changes hpop
    exact FlagsKept.unlistedKept ⟨rfl, rfl, rfl⟩

/-! ## The stack and SLEEP mode -/

theorem pop_of_empty_fault {s : State} (hempty : s.stack = []) (hfault : s.cfg.stackPolicy = .fault) :
    pop s = .error (.stackUnderflow s.pc) := by
  simp [pop, hempty, hfault]

theorem popPc_of_error {s : State} {e : Fault} (h : pop s = .error e) : popPc s = .fault e := by simp [popPc, h]

theorem returnFromInterrupt_of_error {s : State} {e : Fault} (h : pop s = .error e) :
    returnFromInterrupt s = .fault e := by
  simp [returnFromInterrupt, h]

/-- Settles O23: the three returns share one pop. -/
theorem returnFromEmptyStackFaults : Obligations.ReturnFromEmptyStackFaults := by
  intro s k hempty hfault
  have hpop := pop_of_empty_fault hempty hfault
  have hpopW : pop (setW k s) = .error (.stackUnderflow s.pc) := pop_of_empty_fault (s := setW k s) hempty hfault
  exact ⟨popPc_of_error hpop, popPc_of_error hpopW, returnFromInterrupt_of_error hpop⟩

/-- A push with room and one that overwrites both leave the value on top (R30, R69). -/
theorem push_top {s u : State} {a : ProgAddr} (h : push a s = .ok u) : ∃ rest, u.stack = a :: rest := by
  obtain ⟨-, -, rfl⟩ | ⟨-, -, rfl⟩ | ⟨-, -, rfl⟩ := push_cases h <;> exact ⟨_, rfl⟩

theorem pop_circular_cons {s : State} {a : ProgAddr} {rest : List ProgAddr} (hp : s.cfg.stackPolicy = .circular)
    (h : s.stack = a :: rest) :
    pop s = .ok (a, { s with stack := rest, stale := s.stale ++ [a], stackPtr := ptrDown s }) := by
  simp [pop, hp, h]

theorem push_circular_full {s : State} (a : ProgAddr) (hp : s.cfg.stackPolicy = .circular)
    (hfull : s.stack.length = s.cfg.stackDepth) :
    push a s = .ok { s with stack := a :: s.stack.dropLast, stackPtr := ptrUp s } := by
  simp [push, hp, hfull]

/-- Settles O50: a push answers, the value it puts on top is what the next pop finds. -/
theorem circularStackNeverStops : Obligations.CircularStackNeverStops := by
  intro s v hp
  obtain ⟨u, hu⟩ := push_circular v hp
  obtain ⟨rest, htop⟩ := push_top hu
  have hpu : u.cfg.stackPolicy = .circular := by obtain ⟨st, sl, p, rfl⟩ := push_changes hu; exact hp
  exact ⟨⟨u, hu, by simp [htop], _, pop_circular_cons hpu htop⟩, pop_circular hp,
    fun hfull => ⟨_, push_circular_full v hp hfull, rfl⟩⟩

theorem boundary_of_asleep {s : State} (h : s.asleep = true) : boundary s = .next s := by simp [boundary, h]

theorem step_of_run {s : State} {rest : List EnvEvent} (h : s.env = .run :: rest) :
    step s = boundary { s with env := rest } := by
  simp [step, stepOnce, h]

/-- Settles O51: the boundary asleep is a hold, with the entry `run` or without. -/
theorem sleepHoldsTheCore : Obligations.SleepHoldsTheCore := by
  intro s hs
  constructor
  · intro henv
    rw [step_of_silent henv, boundary_of_asleep hs]
  · intro rest henv
    rw [step_of_run henv]
    exact boundary_of_asleep (s := { s with env := rest }) hs

end Sys2Proof.Machine

namespace Sys2Proof.Machine

/-! ## Program memory and the stack replaced

An instruction that does not look at some part of the state does the same whatever stands there. Both statements of this
kind replace parts of the state outright, so one family of replacements carries them. -/

/-- What is put in place of program memory, the stack's entries, its stale slots and its pointer. -/
structure Overlay where
  prog : ProgMem → ProgMem := id
  stack : List ProgAddr → List ProgAddr := id
  stale : List ProgAddr → List ProgAddr := id
  stackPtr : Nat → Nat := id

/-- The state with the replacements made. -/
def Overlay.on (o : Overlay) (s : State) : State :=
  { s with
    prog := o.prog s.prog
    stack := o.stack s.stack
    stale := o.stale s.stale
    stackPtr := o.stackPtr s.stackPtr }

/-- Another program, the stack as it is. -/
def Overlay.ofProg (m : ProgMem) : Overlay := { prog := fun _ => m }

/-- Another stack, the program as it is. -/
def Overlay.ofStack (st sl : List ProgAddr) (p : Nat) : Overlay :=
  { stack := fun _ => st, stale := fun _ => sl, stackPtr := fun _ => p }

/-- The open functions of the state that instructions ask do not look at what is replaced. -/
structure Overlay.Unseen (o : Overlay) (s : State) : Prop where
  fileMap : ∀ f, fileMap (o.on s) f = fileMap s f
  psaTmr0 : psaTmr0 (o.on s) = psaTmr0 s

theorem ofProg_unseen (m : ProgMem) (s : State) : (Overlay.ofProg m).Unseen s := ⟨fun _ => rfl, rfl⟩

theorem fileMap_of_p84 {s : State} (h : s.cfg.fileMap = .p84) (f : FileAddr) : fileMap s f = p84FileMap s f := by
  simp [fileMap, h]

theorem psaTmr0_of_p84 {s : State} (h : s.cfg.psaTmr0 = .p84) : psaTmr0 s = !s.option.getLsbD 3 := by
  simp [psaTmr0, h]

theorem ofStack_unseen {s : State} (st sl : List ProgAddr) (p : Nat) (hmap : s.cfg.fileMap = .p84)
    (hpsa : s.cfg.psaTmr0 = .p84) : (Overlay.ofStack st sl p).Unseen s where
  fileMap f := (fileMap_of_p84 (s := (Overlay.ofStack st sl p).on s) hmap f).trans (fileMap_of_p84 hmap f).symm
  psaTmr0 := (psaTmr0_of_p84 (s := (Overlay.ofStack st sl p).on s) hpsa).trans (psaTmr0_of_p84 hpsa).symm

section
variable (o : Overlay) {s : State} (t : Target) (f : FileAddr) (d : Dest) (r : Byte)

@[simp] theorem on_cfg (s : State) : (o.on s).cfg = s.cfg := rfl
@[simp] theorem on_asleep (s : State) : (o.on s).asleep = s.asleep := rfl
@[simp] theorem on_env (s : State) : (o.on s).env = s.env := rfl

theorem readValue_on : readValue t (o.on s) = readValue t s := by cases t <;> rfl

theorem afterRead_on : afterRead t (o.on s) = o.on (afterRead t s) := by
  unfold afterRead
  split <;> rfl

theorem setFlags_on (a : AluOut) : setFlags a (o.on s) = o.on (setFlags a s) := rfl

theorem finish_on : finish t d (o.on s) = o.on (finish t d s) := by
  unfold finish
  split <;> rfl

variable {o}

theorem fileTarget_on (h : o.Unseen s) : fileTarget (o.on s) f = fileTarget s f := by
  simp only [fileTarget, h.fileMap]
  rfl

theorem writeTarget_on (h : psaTmr0 (o.on s) = psaTmr0 s) : writeTarget t r (o.on s) = o.on (writeTarget t r s) := by
  cases t with
  | tmr0 => simp only [writeTarget, h]; rfl
  | _ => rfl

theorem psaTmr0_on_afterRead (h : o.Unseen s) : psaTmr0 (o.on (afterRead t s)) = psaTmr0 (afterRead t s) := by
  rw [← afterRead_on, psaTmr0_afterRead, psaTmr0_afterRead, h.psaTmr0]

theorem writeDest_afterRead_on (h : o.Unseen s) :
    writeDest t d r (afterRead t (o.on s)) = o.on (writeDest t d r (afterRead t s)) := by
  rw [afterRead_on]
  cases d with
  | w => rfl
  | f => exact writeTarget_on t r (psaTmr0_on_afterRead t h)

theorem clearWdt_on (h : o.Unseen s) : clearWdt (o.on s) = o.on (clearWdt s) := by
  simp only [clearWdt, h.psaTmr0]
  rfl

theorem byteOp_on (alu : Byte → AluOut) (h : o.Unseen s) :
    byteOp f d alu (o.on s) = mapNext o.on (byteOp f d alu s) := by
  unfold byteOp
  rw [fileTarget_on f h]
  cases fileTarget s f with
  | error e => rfl
  | ok t =>
    simp only [readValue_on, writeDest_afterRead_on t d _ h, setFlags_on, finish_on]
    rfl

theorem skipOp_on (g : Byte → Byte) (h : o.Unseen s) :
    skipOp f d g (o.on s) = mapNext o.on (skipOp f d g s) := by
  unfold skipOp
  rw [fileTarget_on f h]
  cases fileTarget s f with
  | error e => rfl
  | ok t =>
    simp only [readValue_on, writeDest_afterRead_on t d _ h]
    split
    · rfl
    · split <;> rfl

theorem testOp_on (b : BitVec 3) (on : Bool) (h : o.Unseen s) :
    testOp f b on (o.on s) = mapNext o.on (testOp f b on s) := by
  unfold testOp
  rw [fileTarget_on f h]
  cases fileTarget s f with
  | error e => rfl
  | ok t =>
    simp only [readValue_on, afterRead_on]
    split <;> rfl

theorem execTris_on (n : BitVec 3) : execTris n (o.on s) = mapNext o.on (execTris n s) := by
  unfold execTris
  cases trisPort n <;> rfl

/-- The instructions that use the stack (R29). -/
def usesStack : Instr → Bool
  | .call _ | .ret | .retlw _ | .retfie => true
  | _ => false

theorem usesStack_iff (i : Instr) :
    usesStack i = true ↔ (∃ k, i = .call k) ∨ i = .ret ∨ (∃ k, i = .retlw k) ∨ i = .retfie := by
  cases i <;> simp [usesStack]

/-- An instruction that does not use the stack does the same with another program and another stack. -/
theorem exec_on {i : Instr} (hi : usesStack i = false) (h : o.Unseen s) :
    exec i (o.on s) = mapNext o.on (exec i s) := by
  cases instrForm i with
  | byte f d alu exec_eq => rw [exec_eq, exec_eq]; exact byteOp_on f d _ h
  | skip f d g exec_eq => rw [exec_eq, exec_eq]; exact skipOp_on f d g h
  | test f b on exec_eq => rw [exec_eq, exec_eq]; exact testOp_on f b on h
  | literal alu exec_eq => rw [exec_eq, exec_eq]; rfl
  | nop | goto | option => rfl
  | clrwdt | sleep => simp only [exec_clrwdt, exec_sleep, clearWdt_on h]; rfl
  | tris n => exact execTris_on n
  | call | ret | retlw | retfie => cases hi

end

/-- Settles O39: P84's file map and prescaler assignment do not see the stack, so another one is an overlay that no
template sees. -/
theorem onlyCallAndReturnsUseTheStack : Obligations.OnlyCallAndReturnsUseTheStack := by
  intro i s st sl p hmap hpsa hcall hretlw hret hretfie
  have hi : usesStack i = false := by
    rw [← Bool.not_eq_true, usesStack_iff]
    rintro (⟨k, rfl⟩ | rfl | ⟨k, rfl⟩ | rfl)
    exacts [hcall k rfl, hret rfl, hretlw k rfl, hretfie rfl]
  exact exec_on hi (ofStack_unseen st sl p hmap hpsa)

/-! ## Another program: the instructions, the events and the boundary -/

/-- The state with the program `m`. -/
abbrev withProg (m : ProgMem) (s : State) : State := (Overlay.ofProg m).on s

section
variable (m : ProgMem) {s : State}

theorem push_withProg (a : ProgAddr) :
    push a (withProg m s) = (push a s).map (withProg m) := by
  unfold push
  cases hp : s.cfg.stackPolicy <;> simp only [Overlay.on, Overlay.ofProg, id, hp] <;> split <;> rfl

theorem pop_withProg :
    pop (withProg m s) = (pop s).map fun x => (x.1, withProg m x.2) := by
  unfold pop
  cases hp : s.cfg.stackPolicy <;> cases hst : s.stack <;> cases hsl : s.stale <;>
    simp only [Overlay.on, Overlay.ofProg, id, hp, hst, hsl] <;> rfl

theorem popPc_withProg : popPc (withProg m s) = mapNext (withProg m) (popPc s) := by
  unfold popPc
  rw [pop_withProg]
  cases pop s <;> rfl

theorem returnFromInterrupt_withProg :
    returnFromInterrupt (withProg m s) = mapNext (withProg m) (returnFromInterrupt s) := by
  unfold returnFromInterrupt
  rw [pop_withProg]
  cases pop s <;> rfl

theorem enterInterrupt_withProg : enterInterrupt (withProg m s) = mapNext (withProg m) (enterInterrupt s) := by
  unfold enterInterrupt
  rw [show (withProg m s).pc = s.pc from rfl, push_withProg]
  cases push s.pc s <;> rfl

theorem execCall_withProg (k : BitVec 11) : execCall k (withProg m s) = mapNext (withProg m) (execCall k s) := by
  unfold execCall
  rw [show (withProg m s).pc = s.pc from rfl, push_withProg]
  cases push (s.pc + 1) s <;> rfl

/-- No instruction reads program memory as data (R88). -/
theorem exec_withProg (i : Instr) : exec i (withProg m s) = mapNext (withProg m) (exec i s) := by
  cases hi : usesStack i with
  | false => exact exec_on hi (ofProg_unseen m s)
  | true =>
    obtain ⟨k, rfl⟩ | rfl | ⟨k, rfl⟩ | rfl := (usesStack_iff i).1 hi
    · exact execCall_withProg m k
    · exact popPc_withProg m
    · exact popPc_withProg m (s := setW k s)
    · exact returnFromInterrupt_withProg m

theorem setRequest_withProg (e : EnvEvent) : setRequest e (withProg m s) = withProg m (setRequest e s) := by
  unfold setRequest
  cases hirq : s.cfg.irq with
  | unconstrained => simp only [on_cfg, hirq]
  | p84 =>
    simp only [on_cfg, hirq]
    cases e with
    | timer0Overflow | intEdge | eeifCleared => simp only [apply_ite (withProg m)]; rfl
    | _ => rfl

theorem wakeIf_withProg (b : Bool) : wakeIf b (withProg m s) = withProg m (wakeIf b s) := by
  simp only [wakeIf, apply_ite (withProg m)]
  rfl

theorem wdtTimeout_withProg : wdtTimeout (withProg m s) = mapNext (withProg m) (wdtTimeout s) := by
  simp only [wdtTimeout, on_cfg, on_asleep, apply_ite (mapNext (withProg m))]
  cases s.cfg.wdtReset <;> rfl

theorem masterClear_withProg : masterClear (withProg m s) = mapNext (withProg m) (masterClear s) := by
  simp only [masterClear, on_cfg, on_asleep]
  cases s.cfg.masterClear with
  | report => rfl
  | restart => simp only [mapNext, apply_ite (withProg m)]; rfl

/-- No event of the environment looks at the program. -/
theorem applyEvent_withProg (e : EnvEvent) :
    applyEvent e (withProg m s) = mapNext (withProg m) (applyEvent e s) := by
  cases e with
  | wdtTimeout => exact wdtTimeout_withProg m
  | masterClear => exact masterClear_withProg m
  | counters wdt psc =>
    exact congrArg Host.Outcome.next (wakeIf_withProg m (s := { s with wdt := _, psc := psc }) _)
  | overdrive p mask =>
    exact congrArg Host.Outcome.next (wakeIf_withProg m (s := { s with overdrive := s.overdrive.set p mask }) _)
  | _ =>
    simp only [applyEvent, setRequest_withProg, wakeIf_withProg]
    rfl

theorem afterIrq_withProg : afterIrq (withProg m s) = withProg m (afterIrq s) := by
  unfold afterIrq
  cases h : s.cfg.irq <;> simp only [on_cfg, h]
  rfl

variable {m}

/-- With another program that has the same word at pc the core does the same. -/
theorem runInstr_withProg (h : fetch (withProg m s) = fetch s) :
    runInstr (withProg m s) = mapNext (withProg m) (runInstr s) := by
  unfold runInstr
  rw [h]
  cases fetch s with
  | none => rfl
  | some w =>
    simp only
    cases decode w with
    | error e => rfl
    | ok i => exact exec_withProg m (s := { s with justWoke := false }) i

theorem fetch_afterIrq (s : State) : fetch (afterIrq s) = fetch s := by simp [fetch]

@[inherit_doc runInstr_withProg]
theorem boundary_withProg (h : fetch (withProg m s) = fetch s) :
    boundary (withProg m s) = mapNext (withProg m) (boundary s) := by
  have hIrq : fetch (withProg m (afterIrq s)) = fetch (afterIrq s) := by
    rw [← afterIrq_withProg, fetch_afterIrq, fetch_afterIrq, h]
  have hlook : irq (withProg m s) = irq s := rfl
  unfold boundary
  rw [hlook, afterIrq_withProg, enterInterrupt_withProg, runInstr_withProg hIrq, runInstr_withProg h]
  simp only [apply_ite (mapNext (withProg m))]
  rfl

@[inherit_doc runInstr_withProg]
theorem step_withProg (h : fetch (withProg m s) = fetch s) :
    step (withProg m s) = mapNext (withProg m) (step s) := by
  unfold step stepOnce
  cases henv : s.env with
  | nil => simp only [on_env, henv]; exact boundary_withProg h
  | cons e rest =>
    simp only [on_env, henv]
    cases e with
    | run => exact boundary_withProg (s := { s with env := rest }) h
    | _ => exact applyEvent_withProg m (s := { s with env := rest }) _

end

/-! ## The skipped word -/

/-- A word loaded at one address leaves every address that is no alias of it as it was. -/
theorem progRead_progWrite_other {k : Config} {a b : ProgAddr} (p : ProgMem) (w : InstrWord)
    (h : b.toNat % k.progWords ≠ a.toNat % k.progWords) : progRead k (progWrite k p a w) b = progRead k p b := by
  simp only [progRead, progWrite, cellAt_writeCell_other h]

section
variable {s u : State}

theorem push_arguments {a : ProgAddr} (h : push a s = .ok u) : u.prog = s.prog ∧ u.cfg = s.cfg := by
  obtain ⟨st, sl, p, rfl⟩ := push_changes h
  exact ⟨rfl, rfl⟩

theorem wakeIf_arguments (b : Bool) (s : State) : (wakeIf b s).prog = s.prog ∧ (wakeIf b s).cfg = s.cfg := by
  obtain h | ⟨-, -, h⟩ := wakeIf_cases b s <;> rw [h] <;> exact ⟨rfl, rfl⟩

theorem setRequest_arguments (e : EnvEvent) (s : State) :
    (setRequest e s).prog = s.prog ∧ (setRequest e s).cfg = s.cfg := by
  obtain h | ⟨b, h⟩ | ⟨b, n, h⟩ := setRequest_cases e s <;> rw [h] <;> exact ⟨rfl, rfl⟩

theorem applyEvent_arguments {e : EnvEvent} (h : applyEvent e s = .next u) : u.prog = s.prog ∧ u.cfg = s.cfg := by
  obtain ⟨-, hwdt⟩ | ⟨-, hclear⟩ | ⟨v, rfl, hv⟩ := applyEvent_cases h
  · obtain ⟨-, rfl⟩ | ⟨-, -, rfl⟩ | ⟨-, -, -, rfl⟩ := wdtTimeout_cases hwdt <;> exact ⟨rfl, rfl⟩
  · obtain ⟨-, ⟨-, rfl⟩ | ⟨-, rfl⟩⟩ := masterClear_cases hclear <;> exact ⟨rfl, rfl⟩
  · obtain ⟨hp, hc⟩ := wakeIf_arguments (wakes e s) v
    rw [hp, hc]
    obtain rfl | ⟨wdt, psc, rfl⟩ | ⟨p, mask, rfl⟩ := hv
    · exact setRequest_arguments e s
    · exact ⟨rfl, rfl⟩
    · exact ⟨rfl, rfl⟩

theorem runInstr_arguments (h : runInstr s = .next u) : u.prog = s.prog ∧ u.cfg = s.cfg := by
  obtain ⟨w, i, -, -, hexec⟩ := runInstr_cases h
  have hf := exec_instrFrame hexec
  exact ⟨hf.prog, hf.cfg⟩

theorem enterInterrupt_arguments (h : enterInterrupt s = .next u) : u.prog = s.prog ∧ u.cfg = s.cfg := by
  obtain ⟨v, hpush, rfl⟩ := enterInterrupt_cases h
  exact push_arguments (u := v) hpush

theorem boundary_arguments (h : boundary s = .next u) : u.prog = s.prog ∧ u.cfg = s.cfg := by
  obtain ⟨-, rfl⟩ | ⟨-, -, -, henter⟩ | ⟨-, -, -, hrun⟩ | ⟨-, -, hrun⟩ := boundary_cases h
  · exact ⟨rfl, rfl⟩
  · simpa using enterInterrupt_arguments henter
  · simpa using runInstr_arguments hrun
  · exact runInstr_arguments hrun

/-- No step changes program memory or the configuration (R86). -/
theorem step_arguments (h : step s = .next u) : u.prog = s.prog ∧ u.cfg = s.cfg := by
  obtain ⟨e, rest, -, -, hevent⟩ | ⟨rest, -, hrun⟩ | ⟨-, hrun⟩ := step_cases h
  · exact applyEvent_arguments (s := { s with env := rest }) hevent
  · exact boundary_arguments (s := { s with env := rest }) hrun
  · exact boundary_arguments hrun

end

/-- Settles O37: a step sees of the program only the word at pc, and neither the skipping step nor the next one has the
word at pc + 1 there. -/
theorem skippedWordIsNeverDecoded : Obligations.SkippedWordIsNeverDecoded := by
  intro s u f d b i w x _ hapart _ _ _ _ hstep hpc
  obtain ⟨hhere, hnext⟩ := hapart
  obtain ⟨hprog, hcfg⟩ := step_arguments hstep
  have hs : fetch (withProg (progWrite s.cfg s.prog (s.pc + 1) x) s) = fetch s :=
    progRead_progWrite_other s.prog x hhere
  have hu : fetch (withProg (progWrite s.cfg s.prog (s.pc + 1) x) u) = fetch u := by
    show progRead u.cfg _ u.pc = progRead u.cfg u.prog u.pc
    rw [hcfg, hprog, hpc]
    exact progRead_progWrite_other s.prog x hnext
  exact ⟨(step_withProg hs).trans (congrArg (mapNext _) hstep), step_withProg hu⟩

end Sys2Proof.Machine

namespace Sys2Proof.Machine

/-! ## The bits of a byte -/

theorem bitAt_getLsbD (p j : Fin 8) (b : Bool) : (bitAt p b).getLsbD j.val = (decide (p = j) && b) := by
  revert p j b
  decide

theorem getLsbD_mergeBits (m a b : Byte) {j : Nat} (hj : j < 8) :
    (mergeBits m a b).getLsbD j = if m.getLsbD j then a.getLsbD j else b.getLsbD j := by
  unfold mergeBits
  split
  · simp [*]
  · cases hm : m.getLsbD j <;>
      simp only [BitVec.getLsbD_or, BitVec.getLsbD_and, BitVec.getLsbD_not, hm, hj] <;> simp

theorem getLsbD_one_shiftLeft (b : BitVec 3) (j : Nat) :
    (1#8 <<< b.toNat).getLsbD j = decide (j = b.toNat) := by
  have hb := b.isLt
  rw [← BitVec.twoPow_eq, BitVec.getLsbD_twoPow, decide_eq_true (by omega), Bool.true_and, decide_eq_decide]
  exact eq_comm

/-- BSF's computation sets the one bit (R172). -/
theorem getLsbD_setBit (a : Byte) (b : BitVec 3) {j : Nat} (hj : j < 8) :
    (setBit a b).getLsbD j = if j = b.toNat then true else a.getLsbD j := by
  rw [setBit, BitVec.getLsbD_or, getLsbD_one_shiftLeft b j]
  split <;> simp [*]

/-- BCF's computation clears the one bit (R171). -/
theorem getLsbD_clearBit (a : Byte) (b : BitVec 3) {j : Nat} (hj : j < 8) :
    (clearBit a b).getLsbD j = if j = b.toNat then false else a.getLsbD j := by
  rw [clearBit, BitVec.getLsbD_and, BitVec.getLsbD_not, getLsbD_one_shiftLeft b j]
  split <;> simp [*]

/-! ## The status image -/

/-- The positions of the status image with the bits that stand there (R43). -/
def statusBits (s : State) : List (Fin 8 × Bool) :=
  [(s.cfg.statusLayout.cPos, s.c), (s.cfg.statusLayout.dcPos, s.dc), (s.cfg.statusLayout.zPos, s.z),
    (s.cfg.statusLayout.pdPos, s.pdBit), (s.cfg.statusLayout.toPos, s.toBit),
    (s.cfg.statusLayout.other0, s.statusOther.getLsbD 0), (s.cfg.statusLayout.other1, s.statusOther.getLsbD 1),
    (s.cfg.statusLayout.other2, s.statusOther.getLsbD 2)]

theorem statusImage_getLsbD (s : State) (j : Fin 8) :
    (statusImage s).getLsbD j.val = (statusBits s).any fun e => decide (e.1 = j) && e.2 := by
  simp only [statusImage, statusBits, BitVec.getLsbD_or, bitAt_getLsbD, List.any_cons, List.any_nil, Bool.or_false,
    Bool.or_assoc]

/-- Of entries at different positions, the one at a position alone says what is there. -/
theorem any_at_of_mem {l : List (Fin 8 × Bool)} {p : Fin 8} {x : Bool} (hl : (l.map Prod.fst).Nodup)
    (h : (p, x) ∈ l) : (l.any fun e => decide (e.1 = p) && e.2) = x := by
  rw [Bool.eq_iff_iff, List.any_eq_true]
  constructor
  · rintro ⟨⟨q, y⟩, hmem, hy⟩
    obtain ⟨rfl, rfl⟩ : q = p ∧ y = true := by simpa using hy
    exact (Prod.mk.inj (List.inj_on_of_nodup_map hl h hmem rfl)).2
  · rintro rfl
    exact ⟨_, h, by simp⟩

/-- With distinct positions each bit of the image is the one that stands there (R43). -/
theorem statusImage_of_mem {s : State} {p : Fin 8} {x : Bool} (hwf : s.cfg.statusLayout.wf = true)
    (h : (p, x) ∈ statusBits s) : (statusImage s).getLsbD p.val = x := by
  have hnodup : ((statusBits s).map Prod.fst).Nodup := of_decide_eq_true hwf
  rw [statusImage_getLsbD, any_at_of_mem hnodup h]

/-- Eight different positions are all the positions of a byte. -/
theorem mem_statusLayout {l : StatusLayout} (h : l.wf = true) (j : Fin 8) :
    j ∈ [l.cPos, l.dcPos, l.zPos, l.pdPos, l.toPos, l.other0, l.other1, l.other2] := by
  have hcard := List.toFinset_card_of_nodup (of_decide_eq_true h)
  exact List.mem_toFinset.1 (Finset.eq_univ_of_card _ hcard ▸ Finset.mem_univ j)

/-- Settles O57: each bit of the image after the write is what the write put at that position. -/
theorem statusImageReadAndWrite : Obligations.StatusImageReadAndWrite := by
  intro s v hwf l
  have hread {p : Fin 8} {x : Bool} (h : (p, x) ∈ statusBits s) := statusImage_of_mem hwf h
  have hwrite {p : Fin 8} {x : Bool} (h : (p, x) ∈ statusBits (writeStatus v s)) :=
    statusImage_of_mem (s := writeStatus v s) hwf h
  obtain ⟨h0, h1, h2⟩ := ofBool_three_bits (v.getLsbD l.other2.val) (v.getLsbD l.other1.val) (v.getLsbD l.other0.val)
  constructor
  · refine ⟨?_, ?_, ?_, ?_, ?_, ?_, ?_, ?_⟩ <;> exact hread (by simp [statusBits, l])
  · intro j
    show (statusImage (writeStatus v s)).getLsbD j.val = _
    have hj := mem_statusLayout hwf j
    simp only [List.mem_cons, List.not_mem_nil, or_false] at hj
    split_ifs with hto hpd
    · subst hto
      exact hwrite (by simp [statusBits, writeStatus, l])
    · subst hpd
      exact hwrite (by simp [statusBits, writeStatus, l])
    · obtain rfl | rfl | rfl | rfl | rfl | rfl | rfl | rfl := hj
      · exact hwrite (.head _)
      · exact hwrite (.tail _ (.head _))
      · exact hwrite (.tail _ (.tail _ (.head _)))
      · exact absurd rfl hpd
      · exact absurd rfl hto
      · rw [← h0]; exact hwrite (by simp [statusBits, writeStatus, l])
      · rw [← h1]; exact hwrite (by simp [statusBits, writeStatus, l])
      · rw [← h2]; exact hwrite (by simp [statusBits, writeStatus, l])

/-! ## What the targets read as -/

/-- Settles O58: the targets held in one field read by definition; the other three are sums of their parts. -/
theorem targetsReadAsTheTableSays : Obligations.TargetsReadAsTheTableSays := by
  intro s
  have hpc : (readValue .pcLow s).toNat = (s.pc.toNat + 1) % 8192 % 256 := by
    simp [readValue, targetValue]
  have hlatch : (readValue .pcLatch s).toNat = s.pclath.toNat := by
    have := s.pclath.isLt
    simp [readValue, targetValue]
    omega
  have hintcon : (readValue .intcon s).toNat = 128 * s.gie.toNat + s.intconLo.toNat := by
    show (BitVec.ofBool s.gie ++ s.intconLo).toNat = _
    rw [BitVec.toNat_append, ← Nat.shiftLeft_add_eq_or_of_lt s.intconLo.isLt, Nat.shiftLeft_eq]
    cases s.gie <;> rfl
  refine ⟨fun _ => rfl, hpc, hlatch, rfl, hintcon, rfl, rfl, rfl, rfl, fun _ => rfl, rfl, fun _ => rfl, fun t => ?_⟩
  cases t <;> simp [drawsOnRead]

/-! ## P84's file map -/

/-! Bank bit and file address together are the 8-bit data address. -/

theorem dataAddress_bank (b : Bool) (f : FileAddr) : (BitVec.ofBool b ++ f : Byte).getLsbD 7 = b :=
  BitVec.getLsbD_append.trans (by simp)

theorem dataAddress_low (b : Bool) (f : FileAddr) : (BitVec.ofBool b ++ f : Byte).extractLsb' 0 7 = f :=
  BitVec.extractLsb'_append_eq_right

theorem dataAddress_split (a : Byte) : (BitVec.ofBool (a.getLsbD 7) ++ a.extractLsb' 0 7 : Byte) = a := by
  refine BitVec.eq_of_getLsbD_eq fun j hj => BitVec.getLsbD_append.trans ?_
  by_cases h : j < 7
  · simp [h]
  · obtain rfl : j = 7 := by omega
    simp

section
variable {a : Byte} {s : State} {f : FileAddr} {t : Target}

theorem p84Cell_of_cell (hlo : 0x0C ≤ (a.extractLsb' 0 7).toNat) (hhi : (a.extractLsb' 0 7).toNat ≤ 0x4F) :
    p84Cell a = .gpr ((a.extractLsb' 0 7).toNat - 0x0C) := by
  unfold p84Cell
  generalize (a.extractLsb' 0 7).toNat = n at *
  simp (disch := omega) only [if_neg, if_pos]

theorem p84Cell_of_hole (h : 0x50 ≤ (a.extractLsb' 0 7).toNat ∨ (a.extractLsb' 0 7).toNat = 0x07) :
    p84Cell a = .unmapped := by
  unfold p84Cell
  generalize (a.extractLsb' 0 7).toNat = n at *
  obtain h | rfl := h
  · simp (disch := omega) only [if_neg]
  · rfl

/-- INDF stands at address 0 of both banks and nowhere else (R65). -/
theorem p84Cell_eq_indf_iff : p84Cell a = .indf ↔ a.extractLsb' 0 7 = 0 := by
  revert a
  decide

/-- What FileMap gives where the address itself is not INDF's. -/
theorem fileMap_of_p84Cell (hp : s.cfg.fileMap = .p84)
    (ht : p84Cell (BitVec.ofBool (s.statusOther.getLsbD 0) ++ f) = t) (hne : t ≠ .indf) : fileMap s f = t := by
  rw [fileMap_of_p84 hp, p84FileMap, ht]
  cases t with
  | indf => exact absurd rfl hne
  | _ => rfl

/-- INDF is what FSR addresses (R65). -/
theorem fileMap_indf (hp : s.cfg.fileMap = .p84) : fileMap s 0x00 = p84Cell s.fsr := by
  rw [fileMap_of_p84 hp, p84FileMap, p84Cell_eq_indf_iff.2 (dataAddress_low _ _)]

end

/-- Settles O59: the shared addresses are checked in both banks, the banked ones in the bank RP0 names. -/
theorem p84FileMapTable : Obligations.P84FileMapTable := by
  intro s hp
  have shared (f : FileAddr) (t : Target) (ht : ∀ b, p84Cell (BitVec.ofBool b ++ f) = t) (hne : t ≠ .indf) :
      fileMap s f = t := fileMap_of_p84Cell hp (ht _) hne
  have banked {b : Bool} (hb : s.statusOther.getLsbD 0 = b) (f : FileAddr) (t : Target)
      (ht : p84Cell (BitVec.ofBool b ++ f) = t) (hne : t ≠ .indf) : fileMap s f = t :=
    fileMap_of_p84Cell hp (hb ▸ ht) hne
  refine ⟨fun f hlo hhi => ?_, fun f hf => ?_, ⟨?_, ?_, ?_, ?_, ?_⟩, fun hb => ⟨?_, ?_, ?_, ?_, ?_⟩,
    fun hb => ⟨?_, ?_, ?_, ?_, ?_⟩, fun hz => ?_, fun hnz => ?_⟩
  · refine shared f _ (fun b => ?_) (by simp)
    rw [p84Cell_of_cell] <;> rw [dataAddress_low] <;> assumption
  · refine shared f _ (fun b => ?_) (by simp)
    exact p84Cell_of_hole (by rwa [dataAddress_low])
  iterate 5 exact shared _ _ (by decide) (by decide)
  iterate 10 exact banked hb _ _ (by decide) (by decide)
  · rw [fileMap_indf hp, p84Cell_eq_indf_iff.2 hz]
  · rw [fileMap_indf hp]
    symm
    refine fileMap_of_p84Cell hp ?_ (mt p84Cell_eq_indf_iff.1 hnz)
    rw [show (BitVec.ofBool (s.fsr.getLsbD 7) |>.setWidth 3).getLsbD 0 = s.fsr.getLsbD 7 by simp, dataAddress_split]

/-! ## Reading and rewriting a port -/

theorem fileTarget_of_mapped {s : State} {f : FileAddr} (h : fileMap s f ≠ .unmapped) :
    fileTarget s f = .ok (fileMap s f) := by
  obtain ⟨hok, -⟩ | ⟨-, hun, -⟩ := fileTarget_cases s f
  · exact hok
  · exact absurd hun h

section
variable {s : State} {f : FileAddr} {p : PortNum} {j : Nat}

theorem fileValue_port (h : fileMap s f = .port p) : fileValue s f = pinLevels s p (Config.drawByte s.draws) := by
  rw [fileValue, h]
  rfl

theorem pinLevels_unconstrained (draw : Byte) (h : s.cfg.pins = .unconstrained) :
    pinLevels s p draw = draw &&& s.cfg.portBits.get p := by
  simp [pinLevels, h]

/-- P84's law at one implemented pin (R66). -/
theorem getLsbD_pinLevels_p84 (draw : Byte) (h : s.cfg.pins = .p84) (hj : j < 8)
    (himpl : (s.cfg.portBits.get p).getLsbD j = true) :
    (pinLevels s p draw).getLsbD j =
      if (s.tris.get p).getLsbD j || (s.overdrive.get p).getLsbD j then draw.getLsbD j
      else (s.latch.get p).getLsbD j := by
  simp only [pinLevels, h, BitVec.getLsbD_and, getLsbD_mergeBits _ _ _ hj, BitVec.getLsbD_or, himpl, Bool.and_true]

theorem getLsbD_pinLevels_unimplemented (draw : Byte) (himpl : (s.cfg.portBits.get p).getLsbD j = false) :
    (pinLevels s p draw).getLsbD j = false := by
  cases hpins : s.cfg.pins <;> simp only [pinLevels, hpins, BitVec.getLsbD_and, himpl, Bool.and_false]

/-- A read-modify-write of a port leaves in the latch what it computed from the pins (R41, R44). -/
theorem byteOp_port (alu : Byte → AluOut) (h : fileMap s f = .port p) :
    ∃ u, byteOp f .f alu s = .next u ∧ u.latch.get p = (alu (fileValue s f)).r := by
  refine ⟨_, byteOp_of_ok (fileTarget_of_mapped (by simp [h])), ?_⟩
  simp [h, writeTarget_latch_get, fileValue]

end

/-- Settles O60: a read is the level at the pins, and a read-modify-write puts its result in the latch. -/
theorem portReadModifyWrite : Obligations.PortReadModifyWrite := by
  intro s f b p hmap
  have hv := fileValue_port hmap
  refine ⟨fun hpins j hj himpl htris hover => ?_, fun hpins j hj himpl hfree => ?_, fun hpins => ?_,
    fun j _ himpl => ?_, ?_, ?_⟩
  · rw [hv, getLsbD_pinLevels_p84 _ hpins hj himpl, htris, hover]
    rfl
  · rw [hv, getLsbD_pinLevels_p84 _ hpins hj himpl, if_pos (by simpa using hfree)]
  · rw [hv, pinLevels_unconstrained _ hpins]
  · rw [hv, getLsbD_pinLevels_unimplemented _ himpl]
  · obtain ⟨u, hu, hlatch⟩ := byteOp_port (fun a => noFlags (setBit a b)) hmap
    exact ⟨u, hu, fun j hj => hlatch ▸ getLsbD_setBit _ b hj⟩
  · obtain ⟨u, hu, hlatch⟩ := byteOp_port (fun a => noFlags (clearBit a b)) hmap
    exact ⟨u, hu, fun j hj => hlatch ▸ getLsbD_clearBit _ b hj⟩

end Sys2Proof.Machine

namespace Sys2Proof.Machine

/-! ## Program memory: no step changes it, no instruction reads it -/

/-- Settles O35: every kind of step keeps the arguments of the step. -/
theorem programMemoryIsConstant : Obligations.ProgramMemoryIsConstant :=
  fun _ _ h => step_arguments h

/-- Settles O36: another program is an overlay that the templates do not see and the stack operations carry along. -/
theorem noInstructionReadsProgramMemory : Obligations.NoInstructionReadsProgramMemory :=
  fun i _ m => exec_withProg m i

/-! ## The boundary with no interrupt entry due -/

section
variable {s : State}

/-- Whether the core has the boundary by a silent environment or by the entry `run`, that entry is consumed. -/
theorem step_of_coreRuns (h : CoreRuns s) : step s = boundary { s with env := s.env.tail } := by
  obtain ⟨-, hrun⟩ := h
  cases henv : s.env with
  | nil => rw [step_of_silent henv, List.tail_nil, ← henv]
  | cons e rest =>
    have he : e = .run := by simpa [henv] using hrun
    exact step_of_run (he ▸ henv)

theorem samplesIrq_iff (s : State) : samplesIrq s = true ↔ s.gie = true ∧ s.justWoke = false := by simp [samplesIrq]

/-- The look at irq leaves one trace, the draw that an open irq takes (log 8). -/
theorem afterIrq_eq (s : State) :
    afterIrq s = { s with draws := s.draws + if s.cfg.irq = .unconstrained then 1 else 0 } := by
  cases h : s.cfg.irq <;> simp [afterIrq, takeDraw, h]

theorem boundary_of_awake (ha : s.asleep = false) :
    boundary s = if samplesIrq s then (if irq s then enterInterrupt (afterIrq s) else runInstr (afterIrq s))
      else runInstr s := by
  simp only [boundary, ha, Bool.false_eq_true, if_false]

/-- A boundary without an interrupt entry runs the instruction at pc, a draw counted where an open irq is looked at. -/
theorem boundary_of_noEntryDue (ha : s.asleep = false) (h : NoEntryDue s) :
    boundary s = runInstr { s with draws :=
      s.draws + if s.gie = true ∧ s.justWoke = false ∧ s.cfg.irq = .unconstrained then 1 else 0 } := by
  rw [boundary_of_awake ha]
  by_cases hlook : s.gie = true ∧ s.justWoke = false
  · have hirq : irq s = false := by simpa [NoEntryDue, hlook] using h
    simp [(samplesIrq_iff s).2 hlook, hirq, afterIrq_eq, hlook]
  · have hno : samplesIrq s = false := by rwa [← Bool.not_eq_true, samplesIrq_iff]
    simp [hno, ← and_assoc, hlook]

/-- With no entry due, a step of the running core executes the instruction at pc from the state `atBoundary`. The mark
of a wake-up is off there already; executing an instruction turns it off in any case. -/
theorem step_of_noEntryDue (hcore : CoreRuns s) (hentry : NoEntryDue s) : step s = runInstr (atBoundary s) := by
  rw [step_of_coreRuns hcore]
  exact boundary_of_noEntryDue (s := { s with env := s.env.tail }) hcore.1 hentry

/-- Where irq is not looked at, the mark of a wake-up and the entry `run` are all that a boundary changes. -/
theorem atBoundary_of_notSampled (h : s.gie = false ∨ s.justWoke = true) :
    atBoundary s = { s with justWoke := false, env := s.env.tail } := by
  have hno : ¬ (s.gie = true ∧ s.justWoke = false ∧ s.cfg.irq = .unconstrained) := by
    rintro ⟨hgie, hwoke, -⟩
    simp [hgie, hwoke] at h
  simp [atBoundary, hno]

theorem runInstr_of_reserved {w : InstrWord} {e : DecodeError} (hf : fetch s = some w) (hd : decode w = .error e) :
    runInstr s = .refused (.reservedEncoding w s.pc) := by
  simp [runInstr, hf, hd]

theorem runInstr_of_absent (hf : fetch s = none) : runInstr s = .fault (.fetchUnmapped s.pc) := by simp [runInstr, hf]

theorem fetch_atBoundary (s : State) : fetch (atBoundary s) = fetch s := rfl

end

/-- Settles O31: the step is the execution from `atBoundary`, which fetches what the state before it fetches; the three
cases are those of fetch and decode. -/
theorem stepRunsTheDecodedInstruction : Obligations.StepRunsTheDecodedInstruction := by
  intro s hcore hentry
  rw [step_of_noEntryDue hcore hentry, ← fetch_atBoundary s]
  exact ⟨fun w i hf hd => runInstr_of_decoded hf hd, fun w e hf hd => runInstr_of_reserved hf hd, runInstr_of_absent⟩

/-! ## A placed word -/

/-- A number of the opcode table is an instruction where it is an instruction word that decodes to it. -/
theorem decodeTableWord_eq_some_iff {nbits n : Nat} {i : Instr} :
    decodeTableWord nbits n = some i ↔ n < 2 ^ 14 ∧ decode (BitVec.ofNat 14 n) = .ok i := by
  unfold decodeTableWord
  cases decode (BitVec.ofNat 14 n) <;> simp

/-- The state with a placed word is at a boundary of the core with no interrupt entry due. -/
theorem placeWord_coreRuns (w : InstrWord) (s : State) : CoreRuns (placeWord w s) := ⟨rfl, rfl⟩

/-- A word is placed so that the coming boundary does not look at irq: with GIE = 1 the state counts as just woken. -/
theorem placeWord_notSampled (w : InstrWord) (s : State) :
    (placeWord w s).gie = false ∨ (placeWord w s).justWoke = true := by
  cases h : s.gie <;> simp [placeWord, h]

theorem fetch_placeWord (w : InstrWord) (s : State) : fetch (placeWord w s) = some w :=
  progRead_progWrite_same s.cfg s.prog s.pc w

/-- The step after placing a word that decodes executes it. -/
theorem step_placeWord {w : InstrWord} {i : Instr} (s : State) (hd : decode w = .ok i) :
    step (placeWord w s) = exec i { placeWord w s with justWoke := false } := by
  have hquiet := placeWord_notSampled w s
  have hentry : NoEntryDue (placeWord w s) := hquiet.elim .inl (.inr ∘ .inl)
  rw [step_of_noEntryDue (placeWord_coreRuns w s) hentry, atBoundary_of_notSampled hquiet]
  exact runInstr_of_decoded (fetch_placeWord w s) hd

/-- Addresses congruent modulo the number of program words are the same place (R72). -/
theorem progRead_of_congruent {k : Config} {a b : ProgAddr} (p : ProgMem)
    (h : b.toNat % k.progWords = a.toNat % k.progWords) : progRead k p b = progRead k p a := by
  simp only [progRead, h]

/-- What every address reads as after one word is loaded. -/
theorem progRead_progWrite (k : Config) (p : ProgMem) (a b : ProgAddr) (w : InstrWord) :
    progRead k (progWrite k p a w) b =
      if b.toNat % k.progWords = a.toNat % k.progWords then some w else progRead k p b := by
  split
  next h => rw [progRead_of_congruent _ h, progRead_progWrite_same]
  next h => exact progRead_progWrite_other p w h

theorem cellAt_eq_none_of_unlisted {n : Nat} {m : List (Nat × BitVec n)} {a : Nat} (h : ∀ v, (a, v) ∉ m) :
    cellAt m a = none := by
  induction m with
  | nil => rfl
  | cons e rest ih =>
    obtain ⟨k, x⟩ := e
    have hk : k ≠ a := fun hka => h x (by simp [hka])
    have hrest : ∀ v, (a, v) ∉ rest := fun v hv => h v (List.mem_cons_of_mem _ hv)
    simp [cellAt, hk, ih hrest]

/-- An address whose word is not listed reads as the erased word, or as none where there is none (R69, R72). -/
theorem progRead_of_unlisted {k : Config} {p : ProgMem} {a : ProgAddr} (h : ∀ w, (a.toNat % k.progWords, w) ∉ p) :
    progRead k p a = k.erased := by
  simp [progRead, cellAt_eq_none_of_unlisted h]

/-- Settles O32: the step after the placing, and the two laws of reading program memory. -/
theorem placedWordRunsNext : Obligations.PlacedWordRunsNext := by
  intro s
  refine ⟨fun nbits n i _ htable => ?_, fun a b w => progRead_progWrite s.cfg s.prog a b w, progRead_of_unlisted⟩
  obtain ⟨-, hd⟩ := decodeTableWord_eq_some_iff.1 htable
  exact step_placeWord s hd

end Sys2Proof.Machine

namespace Sys2Proof

/-! ## The fields of a format's word (R101, R102) -/

section

variable (op : BitVec 6) (d : Dest) (f : FileAddr) (ob : BitVec 4) (b : BitVec 3) (k : Byte) (oj : BitVec 3)
  (a : BitVec 11)

@[simp] theorem wordByte_class : (wordByte op d f).extractLsb' 12 2 = op.extractLsb' 4 2 :=
  (BitVec.extractLsb'_append_eq_of_le (by decide)).trans (BitVec.extractLsb'_append_eq_of_le (by decide))

@[simp] theorem wordByte_opcode : (wordByte op d f).extractLsb' 8 4 = op.extractLsb' 0 4 :=
  (BitVec.extractLsb'_append_eq_of_le (by decide)).trans (BitVec.extractLsb'_append_eq_of_le (by decide))

@[simp] theorem wordByte_bit_seven : (wordByte op d f)[7] = decide (d = .f) :=
  BitVec.getLsbD_append.trans (BitVec.getLsbD_append.trans (by cases d <;> rfl))

@[simp] theorem fieldD_wordByte : fieldD (wordByte op d f) = d := by
  cases d <;> simp [fieldD]

@[simp] theorem fieldF_wordByte : fieldF (wordByte op d f) = f := BitVec.extractLsb'_append_eq_right

@[simp] theorem wordBit_class : (wordBit ob b f).extractLsb' 12 2 = ob.extractLsb' 2 2 :=
  (BitVec.extractLsb'_append_eq_of_le (by decide)).trans (BitVec.extractLsb'_append_eq_of_le (by decide))

@[simp] theorem wordBit_opcode : (wordBit ob b f).extractLsb' 10 2 = ob.extractLsb' 0 2 :=
  (BitVec.extractLsb'_append_eq_of_le (by decide)).trans (BitVec.extractLsb'_append_eq_of_le (by decide))

@[simp] theorem fieldB_wordBit : fieldB (wordBit ob b f) = b :=
  (BitVec.extractLsb'_append_eq_of_le (by decide)).trans BitVec.extractLsb'_append_eq_right

@[simp] theorem fieldF_wordBit : fieldF (wordBit ob b f) = f := BitVec.extractLsb'_append_eq_right

@[simp] theorem wordLit_class : (wordLit op k).extractLsb' 12 2 = op.extractLsb' 4 2 :=
  BitVec.extractLsb'_append_eq_of_le (by decide)

@[simp] theorem wordLit_opcode : (wordLit op k).extractLsb' 8 4 = op.extractLsb' 0 4 :=
  BitVec.extractLsb'_append_eq_of_le (by decide)

@[simp] theorem fieldK_wordLit : fieldK (wordLit op k) = k := BitVec.extractLsb'_append_eq_right

@[simp] theorem wordJump_class : (wordJump oj a).extractLsb' 12 2 = oj.extractLsb' 1 2 :=
  BitVec.extractLsb'_append_eq_of_le (by decide)

@[simp] theorem wordJump_bit_eleven : (wordJump oj a)[11] = oj[0] := BitVec.getLsbD_append

@[simp] theorem fieldAddr_wordJump : fieldAddr (wordJump oj a) = a := BitVec.extractLsb'_append_eq_right

end

/-- The eight words that TRIS's fixed bits leave; three of them are TRIS (R104, R111). -/
theorem decode_encode_tris (f : BitVec 3) (h : (Instr.tris f).wf = true) :
    decode (encode (.tris f)) = .ok (.tris f) := by
  revert f
  decide

end Sys2Proof

namespace Sys2Proof.Machine

/-- Settles O27: each format's opcode selects the one decoder arm, which reads the operand fields back; the words without
operands are evaluated. -/
theorem decodeOfEncode : Obligations.DecodeOfEncode := by
  intro i hwf
  cases i with
  | clrw | nop | clrwdt | retfie | ret | sleep | option => rfl
  | tris f => exact decode_encode_tris f hwf
  | addwf f d | andwf f d | comf f d | decf f d | decfsz f d | incf f d | incfsz f d | iorwf f d | movf f d | rlf f d
  | rrf f d | subwf f d | swapf f d | xorwf f d | clrf f | movwf f => simp [encode, decode, decodeByteOriented]
  | bcf f b | bsf f b | btfsc f b | btfss f b => simp [encode, decode, decodeBitOriented]
  | call k | goto k => simp [encode, decode]
  | addlw k | andlw k | iorlw k | movlw k | retlw k | sublw k | xorlw k => simp [encode, decode, decodeLiteral]

/-- Settles O30: each sample is the canonical word of its instruction. -/
theorem sampleWordsDecode : Obligations.SampleWordsDecode :=
  ⟨decodeOfEncode (.addwf 0x20 .f) rfl, decodeOfEncode (.btfss 0x20 7) rfl, decodeOfEncode (.addlw 0x15) rfl,
    decodeOfEncode (.goto 0x123) rfl, decodeOfEncode (.tris 7) rfl, decodeOfEncode .retfie rfl⟩

end Sys2Proof.Machine

namespace Sys2Proof

/-! ## A word put together from its fields (R101, R102) -/

/-- The number of a word from the fields that the decoder selects by: w[13:12], w[11:8], w[7] and w[6:0]. -/
theorem toNat_eq_fields (w : InstrWord) :
    w.toNat = 4096 * (w.extractLsb' 12 2).toNat + 256 * (w.extractLsb' 8 4).toNat + 128 * (w.getLsbD 7).toNat +
      (w.extractLsb' 0 7).toNat := by
  have hbit : (w.getLsbD 7).toNat = w.toNat / 128 % 2 := by
    rw [← BitVec.testBit_toNat, Nat.toNat_testBit]
  have hlt := w.isLt
  simp only [hbit, BitVec.extractLsb'_toNat, Nat.shiftRight_eq_div_pow]
  omega

theorem toNat_extractLsb'_one (w : InstrWord) (j : Nat) : (w.extractLsb' j 1).toNat = (w.getLsbD j).toNat := by
  rw [BitVec.getLsbD_eq_extractLsb']
  generalize w.extractLsb' j 1 = x
  revert x
  decide

theorem destBit_fieldD (w : InstrWord) : destBit (fieldD w) = w.extractLsb' 7 1 := by
  apply BitVec.eq_of_toNat_eq
  rw [toNat_extractLsb'_one, fieldD]
  cases w.getLsbD 7 <;> rfl

theorem wordByte_fields (w : InstrWord) : wordByte (w.extractLsb' 8 6) (fieldD w) (fieldF w) = w := by
  rw [wordByte, destBit_fieldD, BitVec.extractLsb'_append_extractLsb'_eq_extractLsb' (start₁ := 7) (start₂ := 8) rfl]
  exact BitVec.extractLsb'_append_extractLsb'

theorem wordBit_fields (w : InstrWord) : wordBit (w.extractLsb' 10 4) (fieldB w) (fieldF w) = w := by
  rw [wordBit, fieldB, BitVec.extractLsb'_append_extractLsb'_eq_extractLsb' (start₁ := 7) (start₂ := 10) rfl]
  exact BitVec.extractLsb'_append_extractLsb'

theorem wordLit_fields (w : InstrWord) : wordLit (w.extractLsb' 8 6) (fieldK w) = w :=
  BitVec.extractLsb'_append_extractLsb'

theorem wordJump_fields (w : InstrWord) : wordJump (w.extractLsb' 11 3) (fieldAddr w) = w :=
  BitVec.extractLsb'_append_extractLsb'

/-- The number of two words put together. -/
theorem toNat_append_eq_add {v w : Nat} (x : BitVec v) (y : BitVec w) :
    (x ++ y).toNat = 2 ^ w * x.toNat + y.toNat := by
  rw [BitVec.toNat_append, ← Nat.shiftLeft_add_eq_or_of_lt y.isLt, Nat.shiftLeft_eq, Nat.mul_comm]

/-- A field from the numbers of its upper `hi` and its lower `lo` bits. -/
theorem extractLsb'_eq_ofNat {w : InstrWord} {start lo hi c n : Nat} (hc : (w.extractLsb' (start + lo) hi).toNat = c)
    (hn : (w.extractLsb' start lo).toNat = n) :
    w.extractLsb' start (hi + lo) = BitVec.ofNat (hi + lo) (2 ^ lo * c + n) := by
  rw [← BitVec.extractLsb'_append_extractLsb'_eq_extractLsb' rfl, ← hc, ← hn, ← toNat_append_eq_add,
    BitVec.ofNat_toNat, BitVec.setWidth_eq]

section

variable {w : InstrWord} {n : Nat} {op : BitVec 6}

/-- A word of format BYTE from w[13:12] = 0b00 and w[11:8] (R101). -/
theorem eq_wordByte (hc : (w.extractLsb' 12 2).toNat = 0) (hn : (w.extractLsb' 8 4).toNat = n)
    (hop : BitVec.ofNat 6 (2 ^ 4 * 0 + n) = op) : w = wordByte op (fieldD w) (fieldF w) := by
  rw [← hop, ← extractLsb'_eq_ofNat (start := 8) (hi := 2) hc hn, wordByte_fields]

/-- A word of format BIT from w[13:12] = 0b01 and w[11:10] (R101). -/
theorem eq_wordBit {op : BitVec 4} (hc : (w.extractLsb' 12 2).toNat = 1) (hn : (w.extractLsb' 10 2).toNat = n)
    (hop : BitVec.ofNat 4 (2 ^ 2 * 1 + n) = op) : w = wordBit op (fieldB w) (fieldF w) := by
  rw [← hop, ← extractLsb'_eq_ofNat (start := 10) (hi := 2) hc hn, wordBit_fields]

/-- A word of format JUMP from w[13:12] = 0b10 and w[11] (R101). -/
theorem eq_wordJump {op : BitVec 3} {j : Bool} (hc : (w.extractLsb' 12 2).toNat = 2) (hj : w.getLsbD 11 = j)
    (hop : BitVec.ofNat 3 (2 ^ 1 * 2 + j.toNat) = op) : w = wordJump op (fieldAddr w) := by
  rw [← hop, ← hj, ← extractLsb'_eq_ofNat (start := 11) (hi := 2) hc (toNat_extractLsb'_one w 11), wordJump_fields]

/-- A word of format LIT from w[13:12] = 0b11 and w[11:8] (R101). -/
theorem eq_wordLit (hc : (w.extractLsb' 12 2).toNat = 3) (hn : (w.extractLsb' 8 4).toNat = n)
    (hop : BitVec.ofNat 6 (2 ^ 4 * 3 + n) = op) : w = wordLit op (fieldK w) := by
  rw [← hop, ← extractLsb'_eq_ofNat (start := 8) (hi := 2) hc hn, wordLit_fields]

end

end Sys2Proof

namespace Sys2Proof.Machine

/-! ## The word of a decoded instruction -/

/-- The word stands for the instruction: the term is well formed (R111), and the word is its canonical word but for the
don't-care bits of its row (R105). -/
structure StandsFor (w : InstrWord) (i : Instr) : Prop where
  wf : i.wf = true
  canonical : w &&& careMask i = encode i

/-- In a row without don't-care bits the word is the canonical word. -/
theorem StandsFor.of_eq {w : InstrWord} {i : Instr} (hwf : i.wf = true) (hmask : careMask i = BitVec.allOnes 14)
    (h : w = encode i) : StandsFor w i :=
  ⟨hwf, by rw [hmask, BitVec.and_allOnes, h]⟩

/-- The don't-care bits of a row of format LIT are opcode bits: a mask over the opcode keeps the literal. -/
theorem StandsFor.of_eq_wordLit {w : InstrWord} {i : Instr} {op : BitVec 6} {k : Byte} (m : BitVec 6)
    (h : w = wordLit op k) (hwf : i.wf = true) (hmask : careMask i = m ++ BitVec.allOnes 8)
    (hi : encode i = wordLit (op &&& m) k) : StandsFor w i :=
  ⟨hwf, by rw [hmask, hi, h, wordLit, wordLit, BitVec.and_append, BitVec.and_allOnes]⟩

section

variable {w : InstrWord} {i : Instr}

theorem decodeControl_standsFor (hw : w = 0#7 ++ w.extractLsb' 0 7) (h : decodeControl w = .ok i) : StandsFor w i := by
  have hnum {n : Nat} (hn : (w.extractLsb' 0 7).toNat = n) : w = 0#7 ++ BitVec.ofNat 7 n := by
    rw [← hn, BitVec.ofNat_toNat, BitVec.setWidth_eq, ← hw]
  unfold decodeControl at h
  split at h
  case h_13 => cases h
  all_goals
    next heq =>
    cases h
    obtain rfl := hnum heq
    exact ⟨rfl, rfl⟩

/-- CLRW's don't-care bits are the file address (R105). -/
theorem clrw_standsFor (hw : w = wordByte 1#6 .w (fieldF w)) : StandsFor w .clrw :=
  ⟨rfl, hw ▸ wordByte_mask 1#6 0x3F#6 1#1 .w (fieldF w)⟩

theorem decodeByteOriented_standsFor (hc : (w.extractLsb' 12 2).toNat = 0) (h : decodeByteOriented w = .ok i) :
    StandsFor w i := by
  unfold decodeByteOriented at h
  split at h
  case h_1 hn =>
    split at h
    next hd =>
      cases h
      have hw := eq_wordByte hc hn rfl
      rw [fieldD, if_pos hd] at hw
      exact .of_eq rfl rfl hw
    next hd =>
      have hw := toNat_eq_fields w
      rw [hc, hn, Bool.eq_false_iff.2 hd] at hw
      refine decodeControl_standsFor (BitVec.eq_of_toNat_eq ?_) h
      rw [toNat_append_eq_add, hw]
      simp
  case h_2 hn =>
    have hw := eq_wordByte hc hn rfl
    split at h
    next hd =>
      cases h
      rw [fieldD, if_pos hd] at hw
      exact .of_eq rfl rfl hw
    next hd =>
      cases h
      rw [fieldD, if_neg hd] at hw
      exact clrw_standsFor hw
  case h_16 =>
    cases h
    have hn : (w.extractLsb' 8 4).toNat = 15 := by
      have hlt := (w.extractLsb' 8 4).isLt
      grind
    exact .of_eq rfl rfl (eq_wordByte hc hn rfl)
  all_goals
    next hn =>
    cases h
    exact .of_eq rfl rfl (eq_wordByte hc hn rfl)

theorem decodeBitOriented_standsFor (hc : (w.extractLsb' 12 2).toNat = 1) (h : decodeBitOriented w = .ok i) :
    StandsFor w i := by
  unfold decodeBitOriented at h
  split at h
  case h_4 =>
    cases h
    have hn : (w.extractLsb' 10 2).toNat = 3 := by
      have hlt := (w.extractLsb' 10 2).isLt
      grind
    exact .of_eq rfl rfl (eq_wordBit hc hn rfl)
  all_goals
    next hn =>
    cases h
    exact .of_eq rfl rfl (eq_wordBit hc hn rfl)

theorem decodeLiteral_standsFor (hc : (w.extractLsb' 12 2).toNat = 3) (h : decodeLiteral w = .ok i) :
    StandsFor w i := by
  unfold decodeLiteral at h
  split at h
  case h_12 => cases h
  case h_1 hn | h_2 hn | h_3 hn | h_4 hn | h_5 hn | h_6 hn | h_7 hn | h_8 hn =>
    cases h
    exact .of_eq_wordLit 0x3C (eq_wordLit hc hn rfl) rfl rfl rfl
  case h_13 hn | h_14 hn =>
    cases h
    exact .of_eq_wordLit 0x3E (eq_wordLit hc hn rfl) rfl rfl rfl
  case h_15 =>
    cases h
    have hn : (w.extractLsb' 8 4).toNat = 14 ∨ (w.extractLsb' 8 4).toNat = 15 := by
      have hlt := (w.extractLsb' 8 4).isLt
      grind
    obtain hn | hn := hn
    · exact .of_eq_wordLit 0x3E (eq_wordLit hc hn rfl) rfl rfl rfl
    · exact .of_eq_wordLit 0x3E (eq_wordLit hc hn rfl) rfl rfl rfl
  case h_9 hn | h_10 hn | h_11 hn =>
    cases h
    exact .of_eq rfl rfl (eq_wordLit hc hn rfl)

theorem decode_standsFor (h : decode w = .ok i) : StandsFor w i := by
  unfold decode at h
  split at h
  case h_1 hc => exact decodeByteOriented_standsFor hc h
  case h_2 hc => exact decodeBitOriented_standsFor hc h
  case h_3 hc =>
    split at h
    next hj =>
      cases h
      exact .of_eq rfl rfl (eq_wordJump hc hj rfl)
    next hj =>
      cases h
      exact .of_eq rfl rfl (eq_wordJump hc (Bool.eq_false_iff.2 hj) rfl)
  case h_4 =>
    have hc : (w.extractLsb' 12 2).toNat = 3 := by
      have hlt := (w.extractLsb' 12 2).isLt
      grind
    exact decodeLiteral_standsFor hc h

end

/-- Settles O28: what every arm of the decoder answers stands for the word. -/
theorem decodedWordIsCanonicalButForDontCares : Obligations.DecodedWordIsCanonicalButForDontCares := by
  intro w i h
  obtain ⟨hwf, hcanonical⟩ := decode_standsFor h
  exact ⟨hwf, hcanonical⟩

/-! ## The reserved words -/

section

variable {w : InstrWord} {e : DecodeError}

theorem decodeControl_eq_error_iff :
    decodeControl w = .error e ↔ e = .reserved w ∧ reservedWord (w.extractLsb' 0 7).toNat = true := by
  unfold decodeControl
  split
  case h_13 =>
    have hres : reservedWord (w.extractLsb' 0 7).toNat = true := by
      have hlt := (w.extractLsb' 0 7).isLt
      simp only [imp_false, reservedWord, Bool.or_eq_true, Bool.and_eq_true, decide_eq_true_eq] at *
      omega
    simp only [hres, Except.error.injEq, and_true]
    exact eq_comm
  all_goals
    next hn => simp [hn, reservedWord]

theorem decodeByteOriented_eq_error_iff :
    decodeByteOriented w = .error e ↔
      (w.extractLsb' 8 4).toNat = 0 ∧ w.getLsbD 7 = false ∧ decodeControl w = .error e := by
  unfold decodeByteOriented
  split
  case h_1 hn | h_2 hn => cases hd : w.getLsbD 7 <;> simp [hn]
  case h_16 => grind
  all_goals
    next hn => simp [hn]

theorem decodeBitOriented_ne_error : decodeBitOriented w ≠ .error e := by
  unfold decodeBitOriented
  split <;> simp

theorem decodeLiteral_eq_error_iff :
    decodeLiteral w = .error e ↔ e = .reserved w ∧ (w.extractLsb' 8 4).toNat = 11 := by
  unfold decodeLiteral
  split
  case h_12 hn =>
    simp only [hn, Except.error.injEq, and_true]
    exact eq_comm
  case h_15 => grind
  all_goals
    next hn => simp [hn]

/-- R106's seven ranges in the fields that the decoder selects by: six of control words, and one row of format LIT. -/
theorem reservedWord_iff (w : InstrWord) :
    reservedWord w.toNat = true ↔
      ((w.extractLsb' 12 2).toNat = 0 ∧ (w.extractLsb' 8 4).toNat = 0 ∧ w.getLsbD 7 = false ∧
        reservedWord (w.extractLsb' 0 7).toNat = true) ∨
      ((w.extractLsb' 12 2).toNat = 3 ∧ (w.extractLsb' 8 4).toNat = 11) := by
  have hw := toNat_eq_fields w
  have hn := (w.extractLsb' 8 4).isLt
  have hl := (w.extractLsb' 0 7).isLt
  simp only [reservedWord, Bool.or_eq_true, Bool.and_eq_true, decide_eq_true_eq]
  rw [hw]
  generalize (w.extractLsb' 12 2).toNat = c at *
  generalize (w.extractLsb' 8 4).toNat = n at *
  generalize (w.extractLsb' 0 7).toNat = l at *
  clear hw
  cases w.getLsbD 7 with
  | false =>
    simp only [Bool.toNat_false, true_and]
    omega
  | true =>
    simp only [Bool.toNat_true, reduceCtorEq, false_and, and_false, false_or]
    omega

/-- The decoder's only error names the word, and it is the answer for exactly the words of R106. -/
theorem decode_eq_error_iff : decode w = .error e ↔ e = .reserved w ∧ reservedWord w.toNat = true := by
  rw [reservedWord_iff]
  unfold decode
  split
  case h_1 hc =>
    rw [hc, decodeByteOriented_eq_error_iff, decodeControl_eq_error_iff]
    grind
  case h_2 hc => simp [hc, decodeBitOriented_ne_error]
  case h_3 hc => cases hj : w.getLsbD 11 <;> simp [hc]
  case h_4 =>
    have hc : (w.extractLsb' 12 2).toNat = 3 := by
      have hlt := (w.extractLsb' 12 2).isLt
      grind
    simp [hc, decodeLiteral_eq_error_iff]

end

/-- Settles O29: the decoder's errors are the words of R106 by name, so every other word decodes. -/
theorem reservedWordsAreThoseOfR106 : Obligations.ReservedWordsAreThoseOfR106 := by
  intro w
  refine ⟨fun hres => decode_eq_error_iff.2 ⟨rfl, hres⟩, fun hres => ?_⟩
  cases h : decode w with
  | ok i => exact ⟨i, rfl⟩
  | error e =>
    obtain ⟨-, hreserved⟩ := decode_eq_error_iff.1 h
    exact absurd hreserved (Bool.eq_false_iff.1 hres)

end Sys2Proof.Machine

namespace Sys2Proof.Machine

/-! ## The words of the byte-oriented instructions -/

section

variable (op : BitVec 6) (d : Dest) (f : FileAddr)

theorem destBit_toNat : (destBit d).toNat = destNum d := by cases d <;> rfl

/-- Format BYTE as a number: opcode, d in bit 7, f (R101). -/
theorem wordByte_toNat : (wordByte op d f).toNat = 256 * op.toNat + 128 * destNum d + f.toNat := by
  rw [wordByte, toNat_append_eq_add, toNat_append_eq_add, destBit_toNat]
  omega

theorem encodesAs_toNat_iff (w : InstrWord) (i : Instr) : EncodesAs w.toNat i ↔ decode w = .ok i := by
  rw [EncodesAs, BitVec.ofNat_toNat, BitVec.setWidth_eq]

/-- The word of CLRW with any value in the seven bits that its row leaves free (R105). -/
theorem decode_wordByte_clrw : decode (wordByte 1#6 .w f) = .ok .clrw := by
  simp [decode, decodeByteOriented]

end

/-- An instruction of format BYTE is the word of its opcode's number `n`, its d and its f. -/
theorem encodesAs_wordByte {i : Instr} {n : Nat} {op : BitVec 6} {d : Dest} {f : FileAddr} (hwf : i.wf = true)
    (hi : encode i = wordByte op d f) (hn : 256 * op.toNat = n) : EncodesAs (n + 128 * destNum d + f.toNat) i := by
  rw [← hn, ← wordByte_toNat, ← hi]
  exact (encodesAs_toNat_iff _ _).2 (decodeOfEncode i hwf)

/-! ## The results of the byte-oriented instructions -/

section

variable (a b : Byte) (c : Bool)

theorem withZ_xor : withZ (a ^^^ b) = { r := a ^^^ b, z := some (decide (a = b)) } := by
  simp [withZ_eq, BitVec.xor_eq_zero_iff]

theorem withZ_not : withZ (~~~a) = { r := 255 - a, z := some (decide (a = 255)) } := by
  rw [withZ_eq, ← BitVec.allOnes_sub_eq_not a, decide_eq_decide.2 (sub_eq_zero.trans eq_comm)]
  rfl

theorem withZ_add_one : withZ (a + 1) = { r := a + 1, z := some (decide (a = 255)) } := by
  rw [withZ_eq, decide_eq_decide.2 eq_neg_iff_add_eq_zero.symm]
  rfl

theorem withZ_sub_one : withZ (a - 1) = { r := a - 1, z := some (decide (a = 1)) } := by
  rw [withZ_eq, decide_eq_decide.2 sub_eq_zero]

/-- R148: twice F with C below; C takes bit 7. -/
theorem rotateLeft_eq :
    rotateLeft a c = { r := BitVec.ofNat 8 (2 * a.toNat + c.toNat), c := some (decide (128 ≤ a.toNat)) } := by
  have hr : a.extractLsb' 0 7 ++ BitVec.ofBool c = BitVec.ofNat 8 (2 * a.toNat + c.toNat) := by
    apply BitVec.eq_of_toNat_eq
    have hc := c.toNat_lt
    rw [toNat_append_eq_add, BitVec.extractLsb'_toNat, BitVec.toNat_ofBool, BitVec.toNat_ofNat, Nat.shiftRight_zero]
    omega
  have hbit : a.getLsbD 7 = decide (128 ≤ a.toNat) := a.msb_eq_getLsbD_last.symm.trans a.msb_eq_decide
  rw [rotateLeft, hr, hbit]

/-- R149: half of F with C on top; C takes bit 0. -/
theorem rotateRight_eq :
    rotateRight a c =
      { r := BitVec.ofNat 8 (128 * c.toNat + a.toNat / 2), c := some (decide (a.toNat % 2 = 1)) } := by
  have hr : BitVec.ofBool c ++ a.extractLsb' 1 7 = BitVec.ofNat 8 (128 * c.toNat + a.toNat / 2) := by
    apply BitVec.eq_of_toNat_eq
    have ha := a.isLt
    have hc := c.toNat_lt
    rw [toNat_append_eq_add, BitVec.extractLsb'_toNat, BitVec.toNat_ofBool, BitVec.toNat_ofNat,
      Nat.shiftRight_eq_div_pow]
    omega
  have hbit : a.getLsbD 0 = decide (a.toNat % 2 = 1) := (a.testBit_toNat).symm.trans (Nat.testBit_zero _)
  rw [rotateRight, hr, hbit]

/-- R151: the low nibble on top of the high one. -/
theorem swapNibbles_eq : swapNibbles a = BitVec.ofNat 8 (16 * (a.toNat % 16) + a.toNat / 16) := by
  apply BitVec.eq_of_toNat_eq
  have ha := a.isLt
  simp only [swapNibbles, toNat_append_eq_add, BitVec.extractLsb'_toNat, BitVec.toNat_ofNat, Nat.shiftRight_eq_div_pow,
    Nat.reducePow, Nat.div_one]
  rw [Nat.mod_eq_of_lt (a := a.toNat / 16) (by omega), Nat.mod_eq_of_lt (b := 256) (by omega)]

end

/-! ## The effect of R130's template on every target -/

section

variable {s v : State} {i : Instr} {f : FileAddr} {d : Dest} {t : Target} {r : Byte} {c dc z : Option Bool}

@[simp] theorem landsOn_w (t t' : Target) : ¬ LandsOn t .w t' := by simp [LandsOn]

@[simp] theorem landsOn_f (t t' : Target) : LandsOn t .f t' ↔ t = t' := by simp [LandsOn]

theorem loadsPc_iff_landsOn (t : Target) (d : Dest) : loadsPc t d = true ↔ LandsOn t d .pcLow := loadsPc_iff t d

/-- The three other bits of the status image are those of the data at their positions (R43). -/
theorem writeStatus_other_bits (r : Byte) (s : State) :
    (writeStatus r s).statusOther.getLsbD 0 = r.getLsbD s.cfg.statusLayout.other0.val ∧
    (writeStatus r s).statusOther.getLsbD 1 = r.getLsbD s.cfg.statusLayout.other1.val ∧
    (writeStatus r s).statusOther.getLsbD 2 = r.getLsbD s.cfg.statusLayout.other2.val :=
  ofBool_three_bits _ _ _

theorem writeTarget_events (t : Target) (r : Byte) (s : State) :
    (writeTarget t r s).events =
      match t with
      | .port p => .port p r :: s.events
      | .device n => .device n r :: s.events
      | _ => s.events := by
  cases t <;> rfl

/-- The read and the write of a file register as destination, each field by the target that reaches it (R41). -/
theorem writeTarget_fileWritten (s : State) (t : Target) (r : Byte) :
    FileWritten s (writeTarget t r (afterRead t s)) t .f r where
  w := by simp
  gpr j := by simp [writeTarget_gpr_read]
  pclath := by simp [writeTarget_pclath]
  other0 := by
    obtain ⟨h, -, -⟩ := writeStatus_other_bits r (afterRead t s)
    rw [writeTarget_statusOther, apply_ite (BitVec.getLsbD · 0), h]
    simp
  other1 := by
    obtain ⟨-, h, -⟩ := writeStatus_other_bits r (afterRead t s)
    rw [writeTarget_statusOther, apply_ite (BitVec.getLsbD · 1), h]
    simp
  other2 := by
    obtain ⟨-, -, h⟩ := writeStatus_other_bits r (afterRead t s)
    rw [writeTarget_statusOther, apply_ite (BitVec.getLsbD · 2), h]
    simp
  gie := by simp [writeTarget_gie]
  intconLo := by simp [writeTarget_intconLo]
  fsr := by simp [writeTarget_fsr]
  option := by simp [writeTarget_option]
  tmr0 := by simp [writeTarget_tmr0]
  psc := by simp [writeTarget_psc, psaTmr0_afterRead]
  latch p := by simp [writeTarget_latch_get]
  tris p := by simp [writeTarget_tris_get]
  eeif := by simp
  portEvent := by rintro p ⟨-, rfl⟩; simp [writeTarget_events]
  deviceEvent := by rintro n ⟨-, rfl⟩; simp [writeTarget_events]
  noEvent hport hdevice := by
    rw [writeTarget_events]
    split
    · exact absurd ⟨rfl, rfl⟩ (hport _)
    · exact absurd ⟨rfl, rfl⟩ (hdevice _)
    · exact afterRead_events s t
  draws := by simp [afterRead_draws]
  powerBits := by simp
  stack := by simp
  timers := by simp
  arguments := by simp

/-- The read of a file register and the write of either destination (R41). -/
theorem writeDest_fileWritten (s : State) (t : Target) (d : Dest) (r : Byte) :
    FileWritten s (writeDest t d r (afterRead t s)) t d r := by
  cases d with
  | w => constructor <;> simp [afterRead_draws]
  | f => exact writeTarget_fileWritten s t r

/-- The flags, the pc and the cycle count are no part of what a file register write leaves. -/
theorem FileWritten.of_control (h : FileWritten s v t d r) (c dc z : Bool) (pc : ProgAddr) (n : Nat) :
    FileWritten s { v with c := c, dc := dc, z := z, pc := pc, cycles := n } t d r :=
  { h with }

theorem finish_fileWritten (o : AluOut) (h : FileWritten s v t d r) :
    FileWritten s (finish t d (setFlags o v)) t d r := by
  unfold finish
  split <;> exact h.of_control _ _ _ _ _

/-- After the data write of either destination the flags are its data flags (R43). -/
theorem writeDest_flagsAre (s : State) (t : Target) (d : Dest) (r : Byte) :
    FlagsAre s (writeDest t d r (afterRead t s)) t d r none none none := by
  cases d with
  | w => constructor <;> simp [dataFlag]
  | f => constructor <;> simp [dataFlag, writeTarget_c, writeTarget_dc, writeTarget_z]

/-- A listed flag wins over the data write (R41, R43). -/
theorem finish_flagsAre (o : AluOut) (h : FlagsAre s v t d r none none none) :
    FlagsAre s (finish t d (setFlags o v)) t d r o.c o.dc o.z := by
  constructor <;> simp [h.c, h.dc, h.z]

theorem writeDest_pc (s : State) (t : Target) (d : Dest) (r : Byte) :
    (writeDest t d r (afterRead t s)).pc = if LandsOn t d .pcLow then s.pclath ++ r else s.pc := by
  cases d <;> simp [writeTarget_pc]

@[simp] theorem writeDest_cycles (s : State) (t : Target) (d : Dest) (r : Byte) :
    (writeDest t d r s).cycles = s.cycles := by
  cases d <;> simp

/-- The template of R130 from the destination on: data write, listed flags, finish(). -/
theorem finish_byteEffect (s : State) (t : Target) (d : Dest) (o : AluOut) :
    ByteEffect s (finish t d (setFlags o (writeDest t d o.r (afterRead t s)))) t d o.r o.c o.dc o.z where
  file := finish_fileWritten o (writeDest_fileWritten s t d o.r)
  flags := finish_flagsAre o (writeDest_flagsAre s t d o.r)
  pc := by
    rw [finish_pc, setFlags_pc, writeDest_pc]
    simp only [loadsPc_iff_landsOn]
    split_ifs <;> rfl
  cycles := by simp [finish_cycles, loadsPc_iff_landsOn]

theorem fileTarget_of_accessible (h : FileAccessible s f) : fileTarget s f = .ok (fileMap s f) := by
  obtain ⟨hok, -⟩ | ⟨-, hmap, hfault⟩ := fileTarget_cases s f
  · exact hok
  · simp [h hmap] at hfault

/-- An instruction of R130's template completes with what its computation makes of F. -/
theorem completesWith_of_byteOp {alu : Byte → AluOut} (hexec : exec i s = byteOp f d alu s) (hf : FileAccessible s f)
    (halu : alu (fileValue s f) = { r := r, c := c, dc := dc, z := z }) : CompletesWith i s f d r c dc z := by
  have heffect := finish_byteEffect s (fileMap s f) d (alu (fileValue s f))
  simp only [halu] at heffect
  refine ⟨_, ?_, heffect⟩
  rw [hexec, byteOp_of_ok (fileTarget_of_accessible hf), ← fileValue, halu]

end

/-! ## The instructions of R130's template -/

/-- Settles O1: the sum with its two carries is `add8` in plain arithmetic (R131). -/
theorem addwfAddsWAndFile : Obligations.AddwfAddsWAndFile := fun s f d =>
  ⟨encodesAs_wordByte rfl rfl rfl, fun hf => completesWith_of_byteOp (exec_addwf f d s) hf (add8_eq _ _)⟩

/-- Settles O2: the difference and its two no-borrows are `sub8` in plain arithmetic (R132). -/
theorem subwfSubtractsWFromFile : Obligations.SubwfSubtractsWFromFile := fun s f d =>
  ⟨encodesAs_wordByte rfl rfl rfl, fun hf => completesWith_of_byteOp (exec_subwf f d s) hf (sub8_eq _ _)⟩

/-- Settles O3: three computations of R130's template; XOR is 0 exactly on equal operands. -/
theorem logicOfWAndFile : Obligations.LogicOfWAndFile := fun s f d =>
  ⟨encodesAs_wordByte rfl rfl rfl, encodesAs_wordByte rfl rfl rfl, encodesAs_wordByte rfl rfl rfl, fun hf =>
    ⟨completesWith_of_byteOp (exec_andwf f d s) hf (withZ_eq _),
      completesWith_of_byteOp (exec_iorwf f d s) hf (withZ_eq _),
      completesWith_of_byteOp (exec_xorwf f d s) hf (withZ_xor _ _)⟩⟩

/-- Settles O4: the complement is 255 less F. -/
theorem complementAndMoveOfFile : Obligations.ComplementAndMoveOfFile := fun s f d =>
  ⟨encodesAs_wordByte rfl rfl rfl, encodesAs_wordByte rfl rfl rfl, fun hf =>
    ⟨completesWith_of_byteOp (exec_comf f d s) hf (withZ_not _),
      completesWith_of_byteOp (exec_movf f d s) hf (withZ_eq _)⟩⟩

/-- Settles O5: the one operand on which each result wraps or falls to 0 is where Z is set. -/
theorem incrementAndDecrementOfFile : Obligations.IncrementAndDecrementOfFile := fun s f d =>
  ⟨encodesAs_wordByte rfl rfl rfl, encodesAs_wordByte rfl rfl rfl, fun hf =>
    ⟨completesWith_of_byteOp (exec_incf f d s) hf (withZ_add_one _),
      completesWith_of_byteOp (exec_decf f d s) hf (withZ_sub_one _)⟩⟩

/-- Settles O6: the two rotations in plain arithmetic. -/
theorem rotatesOfFileThroughCarry : Obligations.RotatesOfFileThroughCarry := fun s f d =>
  ⟨encodesAs_wordByte rfl rfl rfl, encodesAs_wordByte rfl rfl rfl, fun hf =>
    ⟨completesWith_of_byteOp (exec_rlf f d s) hf (rotateLeft_eq _ _),
      completesWith_of_byteOp (exec_rrf f d s) hf (rotateRight_eq _ _)⟩⟩

/-- Settles O7: the exchange of the nibbles in plain arithmetic. -/
theorem swapfExchangesNibbles : Obligations.SwapfExchangesNibbles := fun s f d =>
  ⟨encodesAs_wordByte rfl rfl rfl, fun hf =>
    completesWith_of_byteOp (exec_swapf f d s) hf (congrArg noFlags (swapNibbles_eq _))⟩

/-- Settles O8: two computations of R130's template that discard F, and whose words have d = 1. -/
theorem clrfAndMovwfWriteFile : Obligations.ClrfAndMovwfWriteFile := fun s f =>
  ⟨encodesAs_wordByte (n := 0x100) (d := .f) rfl rfl rfl, encodesAs_wordByte (n := 0) (d := .f) rfl rfl rfl, fun hf =>
    ⟨completesWith_of_byteOp (exec_clrf f s) hf rfl, completesWith_of_byteOp (exec_movwf f s) hf rfl⟩⟩

/-! ## DECFSZ and INCFSZ -/

section

variable {s : State} {f : FileAddr} {d : Dest}

/-- The template of DECFSZ and INCFSZ completes, whatever the destination but PcLow: the result is written, no flag is
listed, and the result 0 skips. -/
theorem skipOp_completes (g : Byte → Byte) (hf : FileAccessible s f) (hd : ¬ LandsOn (fileMap s f) d .pcLow) :
    ∃ u, skipOp f d g s = .next u ∧ FileWritten s u (fileMap s f) d (g (fileValue s f)) ∧
      FlagsAre s u (fileMap s f) d (g (fileValue s f)) none none none ∧
      u.pc = (if g (fileValue s f) = 0 then s.pc + 2 else s.pc + 1) ∧
      u.cycles = s.cycles + (if g (fileValue s f) = 0 then 2 else 1) := by
  have hload : loadsPc (fileMap s f) d = false := Bool.eq_false_iff.2 (mt (loadsPc_iff_landsOn _ _).1 hd)
  refine ⟨_, skipOp_of_ok (fileTarget_of_accessible hf) hload, ?_⟩
  have hfile := writeDest_fileWritten s (fileMap s f) d (g (fileValue s f))
  obtain ⟨hc, hdc, hz⟩ := writeDest_flagsAre s (fileMap s f) d (g (fileValue s f))
  have hpc := writeDest_pc s (fileMap s f) d (g (fileValue s f))
  rw [if_neg hd] at hpc
  rw [← fileValue]
  split <;> exact ⟨hfile.of_control _ _ _ _ _, ⟨hc, hdc, hz⟩, by simp [hpc], by simp⟩

end

/-- Settles O11: the template of the two, with the operand on which each result is 0. -/
theorem decfszAndIncfszSkipOnZero : Obligations.DecfszAndIncfszSkipOnZero := by
  intro s f d
  refine ⟨encodesAs_wordByte rfl rfl rfl, encodesAs_wordByte rfl rfl rfl, fun hf hd => ⟨?_, ?_⟩⟩
  · have hzero : fileValue s f - 1 = 0 ↔ fileValue s f = 1 := sub_eq_zero
    simpa only [hzero, exec_decfsz] using skipOp_completes (fun a => a - 1) hf hd
  · have hzero : fileValue s f + 1 = 0 ↔ fileValue s f = 255 := eq_neg_iff_add_eq_zero.symm
    simpa only [hzero, exec_incfsz] using skipOp_completes (fun a => a + 1) hf hd

/-- Settles O12: the address is mapped, so the template gets as far as its destination. -/
theorem skipIntoPcLowIsRefused : Obligations.SkipIntoPcLowIsRefused := by
  intro s f hmap
  have htarget : fileTarget s f = .ok .pcLow := hmap ▸ fileTarget_of_mapped (by simp [hmap])
  rw [exec_decfsz, exec_incfsz]
  exact ⟨skipOp_of_loadsPc htarget rfl, skipOp_of_loadsPc htarget rfl⟩

/-! ## Unmapped addresses, cells, and the two instructions without operands -/

theorem fileTarget_of_unmapped {s : State} {f : FileAddr} (hmap : fileMap s f = .unmapped)
    (hfault : s.cfg.unmapped = .fault) : fileTarget s f = .error (.fileUnmapped f s.pc) := by
  simp [fileTarget, hmap, hfault]

/-- Settles O13: each of the three templates with a file operand resolves its address first. -/
theorem unmappedFileAddressFaults : Obligations.UnmappedFileAddressFaults := by
  intro s f d b i hmap hfault
  have herr := fileTarget_of_unmapped hmap hfault
  have hbyte {d alu} : byteOp f d alu s = .fault (.fileUnmapped f s.pc) := byteOp_of_error herr
  have hskip {g} : skipOp f d g s = .fault (.fileUnmapped f s.pc) := skipOp_of_error herr
  have htest {on} : testOp f b on s = .fault (.fileUnmapped f s.pc) := testOp_of_error herr
  revert i
  simp only [fileInstrs, List.forall_mem_cons]
  exact ⟨(exec_addwf f d s).trans hbyte, (exec_andwf f d s).trans hbyte, (exec_clrf f s).trans hbyte,
    (exec_comf f d s).trans hbyte, (exec_decf f d s).trans hbyte, (exec_decfsz f d s).trans hskip,
    (exec_incf f d s).trans hbyte, (exec_incfsz f d s).trans hskip, (exec_iorwf f d s).trans hbyte,
    (exec_movf f d s).trans hbyte, (exec_movwf f s).trans hbyte, (exec_rlf f d s).trans hbyte,
    (exec_rrf f d s).trans hbyte, (exec_subwf f d s).trans hbyte, (exec_swapf f d s).trans hbyte,
    (exec_xorwf f d s).trans hbyte, (exec_bcf f b s).trans hbyte, (exec_bsf f b s).trans hbyte,
    (exec_btfsc f b s).trans htest, (exec_btfss f b s).trans htest, by simp⟩

section

variable {s u : State} {f : FileAddr} {d : Dest} {j : Nat}

theorem byteOp_cell {alu : Byte → AluOut} (h : byteOp f d alu s = .next u)
    (hd : ¬ LandsOn (fileMap s f) d (.gpr j)) : u.gpr.read j = s.gpr.read j := by
  obtain ⟨t, ht, rfl⟩ := byteOp_cases h
  exact ((finish_byteEffect s t d _).file.gpr j).trans (if_neg (fileTarget_ok ht ▸ hd))

theorem skipOp_cell {g : Byte → Byte} (h : skipOp f d g s = .next u)
    (hd : ¬ LandsOn (fileMap s f) d (.gpr j)) : u.gpr.read j = s.gpr.read j := by
  obtain ⟨t, ht, -, rfl⟩ := skipOp_cases h
  have hw := ((writeDest_fileWritten s t d (g (readValue t s))).gpr j).trans (if_neg (fileTarget_ok ht ▸ hd))
  split <;> exact hw

theorem popPc_gpr (h : popPc s = .next u) : u.gpr = s.gpr := by
  obtain ⟨a, v, hpop, rfl⟩ := popPc_cases h
  obtain ⟨st, sl, p, n, rfl⟩ := pop_changes hpop
  rfl

end

/-- Settles O43: only the templates with a destination write a file register, and theirs is the destination. -/
theorem cellsChangeOnlyAsDestinations : Obligations.CellsChangeOnlyAsDestinations := by
  intro i s u j h hcell
  have hdest : ∀ f d, writeOperand i = some (f, d) → ¬ LandsOn (fileMap s f) d (.gpr j) := by
    rintro f d hop ⟨rfl, hmap⟩
    exact hcell ⟨f, hop, hmap⟩
  cases instrForm i with
  | byte f d alu exec_eq operand => exact byteOp_cell (exec_eq s ▸ h) (hdest f d operand)
  | skip f d g exec_eq operand => exact skipOp_cell (exec_eq s ▸ h) (hdest f d operand)
  | test f b on exec_eq => obtain ⟨t, -, rfl | rfl⟩ := testOp_cases (exec_eq s ▸ h) <;> simp
  | literal alu exec_eq =>
    obtain rfl := literalOp_cases (exec_eq s ▸ h)
    rfl
  | tris n =>
    obtain ⟨p, -, rfl⟩ := execTris_cases h
    rfl
  | nop | goto | clrwdt | sleep | option => cases h; rfl
  | call k =>
    obtain ⟨v, hpush, rfl⟩ := execCall_cases h
    obtain ⟨st, sl, p, rfl⟩ := push_changes hpush
    rfl
  | ret => rw [popPc_gpr h]
  | retlw k => rw [popPc_gpr (s := setW k s) h, setW_gpr]
  | retfie =>
    obtain ⟨a, v, hpop, rfl⟩ := returnFromInterrupt_cases h
    obtain ⟨st, sl, p, n, rfl⟩ := pop_changes hpop
    rfl

/-- Settles O9: the seven free bits stand where format BYTE has f. -/
theorem clrwClearsW : Obligations.ClrwClearsW := by
  refine ⟨fun x => ?_, fun _ => rfl⟩
  have hword : (wordByte 1#6 .w x).toNat = 0x0100 + x.toNat := wordByte_toNat 1#6 .w x
  exact hword ▸ (encodesAs_toNat_iff _ _).2 (decode_wordByte_clrw x)

/-- Settles O10: both parts by evaluation. -/
theorem nopOnlyAdvances : Obligations.NopOnlyAdvances := ⟨⟨rfl, rfl, rfl, rfl⟩, fun _ => rfl⟩

end Sys2Proof.Machine

namespace Sys2Proof.Machine

/-! ## The bit-oriented instructions -/

section

variable {s : State} {f : FileAddr}

/-- Format BIT as a number: opcode, b, f (R101). -/
theorem wordBit_toNat (op : BitVec 4) (b : BitVec 3) (f : FileAddr) :
    (wordBit op b f).toNat = 1024 * op.toNat + 128 * b.toNat + f.toNat := by
  rw [wordBit, toNat_append_eq_add, toNat_append_eq_add]
  omega

/-- An instruction of format BIT is the word of its opcode's number `n`, its b and its f. -/
theorem encodesAs_wordBit {i : Instr} {n : Nat} {op : BitVec 4} {b : BitVec 3} (hwf : i.wf = true)
    (hi : encode i = wordBit op b f) (hn : 1024 * op.toNat = n) : EncodesAs (n + 128 * b.toNat + f.toNat) i := by
  rw [← hn, ← wordBit_toNat, ← hi]
  exact (encodesAs_toNat_iff _ _).2 (decodeOfEncode i hwf)

theorem afterRead_eq (t : Target) (s : State) :
    afterRead t s = { s with draws := s.draws + (if drawsOnRead t then 1 else 0) } := by
  unfold afterRead
  split <;> rfl

/-- The template of BTFSC and BTFSS completes: the bit `on` skips, and the read is all else that is seen (R170). -/
theorem testOp_completes (b : BitVec 3) (on : Bool) (hf : FileAccessible s f) :
    testOp f b on s = .next
      { s with
        pc := if (fileValue s f).getLsbD b.toNat = on then s.pc + 2 else s.pc + 1
        cycles := s.cycles + (if (fileValue s f).getLsbD b.toNat = on then 2 else 1)
        draws := s.draws + (if drawsOnRead (fileMap s f) then 1 else 0) } := by
  rw [testOp_of_ok (fileTarget_of_accessible hf), ← fileValue, afterRead_eq]
  split <;> rfl

end

/-- Settles O14: two computations of R130's template that list no flag, each with its one bit. -/
theorem bcfAndBsfWriteOneBit : Obligations.BcfAndBsfWriteOneBit := fun s f b =>
  ⟨encodesAs_wordBit rfl rfl rfl, encodesAs_wordBit rfl rfl rfl, fun hf =>
    ⟨⟨_, completesWith_of_byteOp (exec_bcf f b s) hf rfl, fun _ hj => getLsbD_clearBit _ b hj⟩,
      ⟨_, completesWith_of_byteOp (exec_bsf f b s) hf rfl, fun _ hj => getLsbD_setBit _ b hj⟩⟩⟩

/-- Settles O15: the template of the two, which skip on opposite values of the bit. -/
theorem btfscAndBtfssSkipOnBit : Obligations.BtfscAndBtfssSkipOnBit := by
  intro s f b
  refine ⟨encodesAs_wordBit rfl rfl rfl, encodesAs_wordBit rfl rfl rfl, fun hf => ⟨?_, ?_⟩⟩
  · rw [exec_btfsc, testOp_completes b false hf]
    cases (fileValue s f).getLsbD b.toNat <;> rfl
  · exact (exec_btfss f b s).trans (testOp_completes b true hf)

end Sys2Proof.Machine

namespace Sys2Proof.Machine

/-! ## The words of the literal instructions, and of CALL and GOTO -/

section

variable (k : Byte) (a : BitVec 11)

/-- Format LIT as a number: opcode, k (R101). -/
theorem wordLit_toNat (op : BitVec 6) : (wordLit op k).toNat = 256 * op.toNat + k.toNat := toNat_append_eq_add op k

/-- Format JUMP as a number: opcode, k (R101). -/
theorem wordJump_toNat (op : BitVec 3) : (wordJump op a).toNat = 2048 * op.toNat + a.toNat := toNat_append_eq_add op a

/-- An instruction is the word of format LIT that decodes to it, by the opcode's number `n`. -/
theorem encodesAs_wordLit {i : Instr} {n : Nat} {k : Byte} (op : BitVec 6) (hd : decode (wordLit op k) = .ok i)
    (hn : 256 * op.toNat = n) : EncodesAs (n + k.toNat) i := by
  rw [← hn, ← wordLit_toNat]
  exact (encodesAs_toNat_iff _ _).2 hd

@[inherit_doc encodesAs_wordLit]
theorem encodesAs_wordJump {i : Instr} {n : Nat} {a : BitVec 11} (op : BitVec 3) (hd : decode (wordJump op a) = .ok i)
    (hn : 2048 * op.toNat = n) : EncodesAs (n + a.toNat) i := by
  rw [← hn, ← wordJump_toNat]
  exact (encodesAs_toNat_iff _ _).2 hd

/-! A row with don't-care bits has words that no instruction encodes to (R105): the decoder's arms for them. -/

theorem decode_wordLit_addlw_one : decode (wordLit 0b111111#6 k) = .ok (.addlw k) := by simp [decode, decodeLiteral]

theorem decode_wordLit_sublw_one : decode (wordLit 0b111101#6 k) = .ok (.sublw k) := by simp [decode, decodeLiteral]

theorem two_bits_cases (x : BitVec 2) : x = 0 ∨ x = 1 ∨ x = 2 ∨ x = 3 := by
  revert x
  decide

theorem decode_wordLit_movlw (x : BitVec 2) : decode (wordLit (0b1100#4 ++ x) k) = .ok (.movlw k) := by
  obtain rfl | rfl | rfl | rfl := two_bits_cases x <;> simp [decode, decodeLiteral]

theorem decode_wordLit_retlw (x : BitVec 2) : decode (wordLit (0b1101#4 ++ x) k) = .ok (.retlw k) := by
  obtain rfl | rfl | rfl | rfl := two_bits_cases x <;> simp [decode, decodeLiteral]

/-- The opcode of a row whose two lower bits are don't-care bits, as the part of a word's number above k. -/
theorem toNat_opcode_dontCare (hi : BitVec 4) (x : BitVec 2) :
    256 * (hi ++ x).toNat = 1024 * hi.toNat + 256 * x.toNat := by
  rw [toNat_append_eq_add]
  omega

/-- The target of CALL and GOTO as a number (R71, R183, R185). -/
theorem pageTarget_eq (s : State) : pageTarget s a = BitVec.ofNat 13 (2048 * (s.pclath.toNat / 8) + a.toNat) := by
  have hpage : (s.pclath.extractLsb' 3 2).toNat = s.pclath.toNat / 8 := by
    have hlt := s.pclath.isLt
    simp only [BitVec.extractLsb'_toNat, Nat.shiftRight_eq_div_pow]
    omega
  calc pageTarget s a = BitVec.ofNat 13 (pageTarget s a).toNat := by simp
    _ = BitVec.ofNat 13 (2048 * (s.pclath.toNat / 8) + a.toNat) := by
      rw [pageTarget, toNat_append_eq_add, hpage]
      rfl

end

/-! ## The instructions that end with next() or a jump -/

/-- The template of R180 (a) as one record: the result in W, the listed flags, the next instruction. -/
theorem literalOp_eq (o : AluOut) (s : State) :
    literalOp o s = .next
      { s with
        w := o.r
        c := o.c.getD s.c
        dc := o.dc.getD s.dc
        z := o.z.getD s.z
        pc := s.pc + 1
        cycles := s.cycles + 1 } := rfl

/-- A transfer of control as one record (R180 b). -/
theorem jumpTo_eq (a : ProgAddr) (s : State) : jumpTo a s = { s with pc := a, cycles := s.cycles + 2 } := rfl

/-- Settles O16: R131's sum as the result of a literal instruction. -/
theorem addlwAddsLiteral : Obligations.AddlwAddsLiteral := by
  intro s k
  refine ⟨encodesAs_wordLit _ (decodeOfEncode (.addlw k) rfl) rfl,
    encodesAs_wordLit _ (decode_wordLit_addlw_one k) rfl, ?_⟩
  rw [exec_addlw, add8_eq, literalOp_eq]
  rfl

/-- Settles O17: R132's difference as the result of a literal instruction. -/
theorem sublwSubtractsWFromLiteral : Obligations.SublwSubtractsWFromLiteral := by
  intro s k
  refine ⟨encodesAs_wordLit _ (decodeOfEncode (.sublw k) rfl) rfl,
    encodesAs_wordLit _ (decode_wordLit_sublw_one k) rfl, ?_⟩
  rw [exec_sublw, sub8_eq, literalOp_eq]
  rfl

/-- Settles O18: three results that affect Z only. -/
theorem logicOfWAndLiteral : Obligations.LogicOfWAndLiteral := by
  intro s k
  refine ⟨encodesAs_wordLit _ (decodeOfEncode (.andlw k) rfl) rfl,
    encodesAs_wordLit _ (decodeOfEncode (.iorlw k) rfl) rfl,
    encodesAs_wordLit _ (decodeOfEncode (.xorlw k) rfl) rfl, ?_, ?_, ?_⟩
  · rw [exec_andlw, withZ_eq, literalOp_eq]
    rfl
  · rw [exec_iorlw, withZ_eq, literalOp_eq]
    rfl
  · rw [exec_xorlw, withZ_xor, literalOp_eq]
    rfl

/-- Settles O19: k as the result, with no flag listed. -/
theorem movlwLoadsLiteral : Obligations.MovlwLoadsLiteral := fun s k x =>
  ⟨encodesAs_wordLit _ (decode_wordLit_movlw k x) (toNat_opcode_dontCare _ x),
    (exec_movlw k s).trans (literalOp_eq (noFlags k) s)⟩

/-- Settles O21: the target is `pageTarget_eq`'s. -/
theorem gotoJumps : Obligations.GotoJumps := by
  intro s k
  refine ⟨encodesAs_wordJump _ (decodeOfEncode (.goto k) rfl) rfl, ?_⟩
  rw [exec_goto, pageTarget_eq, jumpTo_eq]

/-- Settles O24: both instructions are `clearWdt`, the power bits and next(), SLEEP asleep after that. -/
theorem clrwdtAndSleepClearTheWatchdog : Obligations.ClrwdtAndSleepClearTheWatchdog :=
  ⟨rfl, rfl, fun s => ⟨exec_clrwdt s, exec_sleep s, fun hp84 => by simp [psaTmr0_of_p84 hp84]⟩⟩

/-! ## CALL and the push -/

section

variable {s : State} {a : ProgAddr}

@[simp] theorem pushed_cycles : (pushed a s).cycles = s.cycles := by
  unfold pushed
  split <;> rfl

theorem pushed_of_room (h : s.stack.length < s.cfg.stackDepth) :
    pushed a s =
      { s with
        stack := a :: s.stack
        stale := if s.cfg.stackPolicy = .circular then s.stale.dropLast else s.stale
        stackPtr := ptrUp s } := if_pos h

/-- A push with room, or onto a circular stack (R30, R69). -/
theorem push_of_canPush (h : CanPush s) : push a s = .ok (pushed a s) := by
  unfold push
  cases hp : s.cfg.stackPolicy with
  | fault =>
    have hroom : s.stack.length < s.cfg.stackDepth := h.resolve_right (by simp [hp])
    simp [pushed_of_room, hroom, hp]
  | circular =>
    by_cases hroom : s.stack.length < s.cfg.stackDepth
    · simp [pushed_of_room, hroom, hp]
    · simp [pushed, hroom, ptrUp]

/-- A push onto a full stack under the spec's own policy (R30, D6). -/
theorem push_of_not_canPush (h : ¬ CanPush s) : push a s = .error (.stackOverflow s.pc) := by
  obtain ⟨hfull, hpolicy⟩ := not_or.1 h
  have hfault : s.cfg.stackPolicy = .fault := by
    cases hp : s.cfg.stackPolicy with
    | fault => rfl
    | circular => exact absurd hp hpolicy
  simp [push, hfault, hfull]

end

theorem exec_call_of_canPush {s : State} (k : BitVec 11) (h : CanPush s) :
    exec (.call k) s = .next
      { pushed (s.pc + 1) s with
        pc := BitVec.ofNat 13 (2048 * (s.pclath.toNat / 8) + k.toNat), cycles := s.cycles + 2 } := by
  rw [exec_call, execCall, push_of_canPush h, pageTarget_eq]
  simp [jumpTo_eq]

/-- Settles O20: the push of pc + 1 decides between the jump and the outcome. -/
theorem callPushesAndJumps : Obligations.CallPushesAndJumps := by
  intro s k
  refine ⟨encodesAs_wordJump _ (decodeOfEncode (.call k) rfl) rfl, exec_call_of_canPush k, fun hfull => ?_⟩
  rw [exec_call, execCall, push_of_not_canPush hfull]

/-! ## The returns and the pop -/

section

variable {s v : State} {a : ProgAddr}

/-- A pop from a stack with an entry, by either policy (R31, R69). -/
theorem pop_cons {rest : List ProgAddr} (h : s.stack = a :: rest) :
    pop s = .ok
      (a, { s with
            stack := rest
            stale := if s.cfg.stackPolicy = .circular then s.stale ++ [a] else s.stale
            stackPtr := ptrDown s }) := by
  cases hp : s.cfg.stackPolicy <;> simp [pop, h, hp]

theorem pop_of_canPop (h : CanPop s) : ∃ a v, pop s = .ok (a, v) := by
  obtain hne | hp := h
  · obtain ⟨a, rest, hcons⟩ := List.exists_cons_of_ne_nil hne
    exact ⟨a, _, pop_cons hcons⟩
  · exact pop_circular hp

theorem popPc_of_ok (h : pop s = .ok (a, v)) : popPc s = .next (jumpTo a v) := by simp [popPc, h]

theorem returnFromInterrupt_of_ok (h : pop s = .ok (a, v)) :
    returnFromInterrupt s = .next (jumpTo a { v with gie := true }) := by
  simp [returnFromInterrupt, h]

/-- A pop does not look at W. -/
theorem pop_setW (k : Byte) : pop (setW k s) = (pop s).map fun x => (x.1, setW k x.2) := by
  unfold pop
  simp only [setW_cfg, setW_stack, setW_stale, setW_pc, setW_draws]
  split <;> rfl

/-- What a return leaves, whatever it puts into W and GIE: the four ways a pop answers. -/
theorem popped_of_pop (w : Byte) (g : Bool) (h : pop s = .ok (a, v)) :
    Popped s (jumpTo a { v with w := w, gie := g }) a := by
  obtain ⟨rest, hp, hst, rfl⟩ | ⟨rest, hp, hst, rfl⟩ | ⟨rest, hp, hst, hsl, rfl⟩ | ⟨hp, hst, hsl, rfl, rfl⟩ :=
    pop_cases h
  · constructor
    case rest => rfl
    all_goals simp [hp, hst, ptrDown]
  · constructor
    case rest => rfl
    all_goals simp [hp, hst, ptrDown]
  · constructor
    case rest => rfl
    all_goals simp [hp, hst, hsl, staleTop, ptrDown]
  · constructor
    case rest => rfl
    all_goals simp [hp, hst, hsl, staleTop, ptrDown]

end

/-- Settles O22: the three returns share the pop; RETLW writes W before it and RETFIE sets GIE after it. -/
theorem returnsPopThePc : Obligations.ReturnsPopThePc := by
  intro s k x
  refine ⟨rfl, rfl, encodesAs_wordLit _ (decode_wordLit_retlw k x) (toNat_opcode_dontCare _ x), fun hcan => ?_⟩
  obtain ⟨a, v, hpop⟩ := pop_of_canPop hcan
  obtain ⟨st, sl, p, n, hv⟩ := pop_changes hpop
  have hw : v.w = s.w := by rw [hv]
  have hg : v.gie = s.gie := by rw [hv]
  refine ⟨⟨jumpTo a v, a, ?_, popped_of_pop v.w v.gie hpop, hw, hg⟩,
    ⟨jumpTo a (setW k v), a, ?_, popped_of_pop k v.gie hpop, rfl, hg⟩,
    ⟨jumpTo a { v with gie := true }, a, ?_, popped_of_pop v.w true hpop, hw, rfl⟩⟩
  · rw [exec_ret, popPc_of_ok hpop]
  · rw [exec_retlw, popPc_of_ok (v := setW k v) (by rw [pop_setW, hpop]; rfl)]
  · rw [exec_retfie, returnFromInterrupt_of_ok hpop]

/-! ## CALL and then RETURN -/

/-- The pointer one slot on and back again stands where it stood. -/
theorem ptr_up_down {p d : Nat} (h : p < d) : ((p + 1) % d + (d - 1)) % d = p := by
  rw [Nat.mod_add_mod, show p + 1 + (d - 1) = p + d by omega, Nat.add_mod_right, Nat.mod_eq_of_lt h]

/-- Settles O49: the RETURN pops what the CALL pushed, and the pointer is back at its slot. -/
theorem returnGoesOnAfterTheCall : Obligations.ReturnGoesOnAfterTheCall := by
  intro s k hroom hptr
  refine ⟨_, exec_call_of_canPush k (.inl hroom), ?_⟩
  rw [pushed_of_room hroom, exec_ret, popPc_of_ok (pop_cons rfl), jumpTo_eq]
  cases s.cfg.stackPolicy <;> simp [ptrUp, ptrDown, ptr_up_down hptr]

end Sys2Proof.Machine

namespace Sys2Proof.Machine

/-! ## OPTION and TRIS (43_compat_option_tris.md) -/

/-- An instruction is the word of its encoding's number: the form for the rows whose words are all fixed (R104). -/
theorem encodesAs_of_encode_toNat {i : Instr} {n : Nat} (hwf : i.wf = true) (hn : (encode i).toNat = n) :
    EncodesAs n i := by
  rw [← hn]
  exact (encodesAs_toNat_iff _ _).2 (decodeOfEncode i hwf)

/-- next() as one record (R25, R261). -/
theorem nextInstr_eq (s : State) : nextInstr s = { s with pc := s.pc + 1, cycles := s.cycles + 1 } := rfl

section

variable {f : BitVec 3} {p : PortNum}

/-- Of the eight operands exactly those below 5 name no TRIS register (R212). -/
theorem trisPort_eq_none_iff : trisPort f = none ↔ f.toNat < 5 := by
  revert f
  decide

theorem execTris_of_some (h : trisPort f = some p) (s : State) :
    execTris f s = .next { s with tris := s.tris.set p s.w, pc := s.pc + 1, cycles := s.cycles + 1 } := by
  simp only [execTris, h, nextInstr_eq]

theorem execTris_of_none (h : trisPort f = none) (s : State) : execTris f s = .refused (.trisNumber f) := by
  simp only [execTris, h]

end

/-- Settles O25: OPTION is the write of the register, not through FileMap, and next(). -/
theorem optionLoadsW : Obligations.OptionLoadsW := by
  refine ⟨encodesAs_of_encode_toNat rfl rfl, fun s => ?_⟩
  rw [exec_option, nextInstr_eq]

/-- Settles O26: the operand's register by `trisPort`, which has one for 5, 6 and 7 and none below. -/
theorem trisLoadsW : Obligations.TrisLoadsW := by
  refine ⟨⟨encodesAs_of_encode_toNat rfl rfl, encodesAs_of_encode_toNat rfl rfl, encodesAs_of_encode_toNat rfl rfl⟩,
    fun s => ⟨?_, ?_, ?_, fun f hlt => ?_⟩⟩
  · exact execTris_of_some (f := 5) (p := .p5) rfl s
  · exact execTris_of_some (f := 6) (p := .p6) rfl s
  · exact execTris_of_some (f := 7) (p := .p7) rfl s
  · exact execTris_of_none (trisPort_eq_none_iff.2 hlt) s

end Sys2Proof.Machine

namespace Sys2Proof.Machine

/-! ## GIE, INTCON<6:0> and PCLATH -/

/-- GIE, INTCON<6:0> and PCLATH are each as before instruction `i`, but by their own writes (R223, R34, R35). -/
def ControlKept (i : Instr) (s u : State) : Prop :=
  (i ≠ .retfie → ¬ WritesTarget i s .intcon → u.gie = s.gie) ∧
    (¬ WritesTarget i s .intcon → u.intconLo = s.intconLo) ∧ (¬ WritesTarget i s .pcLatch → u.pclath = s.pclath)

section

variable {i : Instr} {s u : State} {f : FileAddr} {d : Dest} {r : Byte}

theorem controlKept_of_eq (hgie : u.gie = s.gie) (hlo : u.intconLo = s.intconLo) (hlatch : u.pclath = s.pclath) :
    ControlKept i s u := ⟨fun _ _ => hgie, fun _ => hlo, fun _ => hlatch⟩

/-- A file register write reaches the three by their own targets alone (R41). -/
theorem FileWritten.controlKept (h : FileWritten s u (fileMap s f) d r) (operand : writeOperand i = some (f, d)) :
    ControlKept i s u := by
  have miss {t : Target} (hno : ¬ WritesTarget i s t) : ¬ LandsOn (fileMap s f) d t := by
    rintro ⟨rfl, hmap⟩
    exact hno ⟨f, operand, hmap⟩
  exact ⟨fun _ hno => h.gie.trans (if_neg (miss hno)), fun hno => h.intconLo.trans (if_neg (miss hno)),
    fun hno => h.pclath.trans (if_neg (miss hno))⟩

theorem byteOp_fileWritten {alu : Byte → AluOut} (h : byteOp f d alu s = .next u) :
    ∃ r, FileWritten s u (fileMap s f) d r := by
  obtain ⟨t, ht, rfl⟩ := byteOp_cases h
  obtain rfl := fileTarget_ok ht
  exact ⟨_, (finish_byteEffect s (fileMap s f) d _).file⟩

theorem skipOp_fileWritten {g : Byte → Byte} (h : skipOp f d g s = .next u) :
    ∃ r, FileWritten s u (fileMap s f) d r := by
  obtain ⟨t, ht, -, rfl⟩ := skipOp_cases h
  obtain rfl := fileTarget_ok ht
  have hfile := writeDest_fileWritten s (fileMap s f) d (g (readValue (fileMap s f) s))
  split <;> exact ⟨_, hfile.of_control _ _ _ _ _⟩

theorem popPc_control (h : popPc s = .next u) : u.gie = s.gie ∧ u.intconLo = s.intconLo ∧ u.pclath = s.pclath := by
  obtain ⟨a, v, hpop, rfl⟩ := popPc_cases h
  obtain ⟨st, sl, p, n, rfl⟩ := pop_changes hpop
  exact ⟨rfl, rfl, rfl⟩

end

/-- Settles O42: the templates with a destination write the three as file registers, and RETFIE sets GIE besides. -/
theorem gieAndPclathChangeOnlyByTheirWrites : Obligations.GieAndPclathChangeOnlyByTheirWrites := by
  intro i s u h
  show ControlKept i s u
  cases instrForm i with
  | byte f d alu exec_eq operand =>
    obtain ⟨r, hfile⟩ := byteOp_fileWritten (exec_eq s ▸ h)
    exact hfile.controlKept operand
  | skip f d g exec_eq operand =>
    obtain ⟨r, hfile⟩ := skipOp_fileWritten (exec_eq s ▸ h)
    exact hfile.controlKept operand
  | test f b on exec_eq =>
    obtain ⟨t, -, rfl | rfl⟩ := testOp_cases (exec_eq s ▸ h) <;> apply controlKept_of_eq <;> simp
  | literal alu exec_eq =>
    obtain rfl := literalOp_cases (exec_eq s ▸ h)
    exact controlKept_of_eq rfl rfl rfl
  | tris n =>
    obtain ⟨p, -, rfl⟩ := execTris_cases h
    exact controlKept_of_eq rfl rfl rfl
  | nop | goto | clrwdt | sleep | option => cases h; exact controlKept_of_eq rfl rfl rfl
  | call k =>
    obtain ⟨v, hpush, rfl⟩ := execCall_cases h
    obtain ⟨st, sl, p, rfl⟩ := push_changes hpush
    exact controlKept_of_eq rfl rfl rfl
  | ret =>
    obtain ⟨hgie, hlo, hlatch⟩ := popPc_control h
    exact controlKept_of_eq hgie hlo hlatch
  | retlw k =>
    obtain ⟨hgie, hlo, hlatch⟩ := popPc_control (s := setW k s) h
    exact controlKept_of_eq hgie hlo hlatch
  | retfie =>
    obtain ⟨a, v, hpop, rfl⟩ := returnFromInterrupt_cases h
    obtain ⟨st, sl, p, n, rfl⟩ := pop_changes hpop
    exact ⟨fun hne => absurd rfl hne, fun _ => rfl, fun _ => rfl⟩

/-! ## Every instruction completes -/

/-- The operands of TRIS that R111 admits name a register (R212). -/
theorem exists_trisPort_of_wf {f : BitVec 3} (h : (Instr.tris f).wf = true) : ∃ p, trisPort f = some p := by
  refine Option.ne_none_iff_exists'.1 fun hnone => ?_
  have hlt := trisPort_eq_none_iff.1 hnone
  have hle : 5 ≤ f.toNat := of_decide_eq_true h
  omega

theorem skipOp_answers {s : State} {f : FileAddr} {d : Dest} (g : Byte → Byte) (hf : FileAccessible s f)
    (hd : d = .f → fileMap s f ≠ .pcLow) : ∃ u, skipOp f d g s = .next u := by
  obtain ⟨u, hu, -⟩ := skipOp_completes g hf fun ⟨hdest, hmap⟩ => hd hdest hmap
  exact ⟨u, hu⟩

/-- Settles O44: what can stop an instruction is its file operand's address, the stack, or a TRIS operand without a
register. -/
theorem everyInstructionCompletesUnderP84 : Obligations.EveryInstructionCompletesUnderP84 := by
  intro i s hwf hcirc hzero hskip
  have access (f : FileAddr) : FileAccessible s f := fun _ => hzero
  have byte {d alu} (f : FileAddr) : ∃ u, byteOp f d alu s = .next u :=
    ⟨_, byteOp_of_ok (fileTarget_of_accessible (access f))⟩
  have test {b on} (f : FileAddr) : ∃ u, testOp f b on s = .next u :=
    ⟨_, testOp_of_ok (fileTarget_of_accessible (access f))⟩
  obtain ⟨a, v, hpop⟩ := pop_of_canPop (s := s) (.inr hcirc)
  cases i with
  | addwf f | andwf f | clrf f | comf f | decf f | incf f | iorwf f | movf f | movwf f | rlf f | rrf f | subwf f
  | swapf f | xorwf f | bcf f | bsf f =>
    simp only [exec_addwf, exec_andwf, exec_clrf, exec_comf, exec_decf, exec_incf, exec_iorwf, exec_movf, exec_movwf,
      exec_rlf, exec_rrf, exec_subwf, exec_swapf, exec_xorwf, exec_bcf, exec_bsf]
    exact byte f
  | decfsz f d =>
    rw [exec_decfsz]
    exact skipOp_answers _ (access f) fun hd => hskip f (.inl (by rw [hd]))
  | incfsz f d =>
    rw [exec_incfsz]
    exact skipOp_answers _ (access f) fun hd => hskip f (.inr (by rw [hd]))
  | btfsc f b | btfss f b => exact test f
  | clrw | nop | addlw | andlw | clrwdt | goto | iorlw | movlw | sleep | sublw | xorlw | option => exact ⟨_, rfl⟩
  | tris f =>
    obtain ⟨p, hp⟩ := exists_trisPort_of_wf hwf
    exact ⟨_, execTris_of_some hp s⟩
  | call k => exact ⟨_, exec_call_of_canPush k (.inr hcirc)⟩
  | ret => exact ⟨_, popPc_of_ok hpop⟩
  | retlw k => exact ⟨_, popPc_of_ok (v := setW k v) (by rw [pop_setW, hpop]; rfl)⟩
  | retfie => exact ⟨_, returnFromInterrupt_of_ok hpop⟩

/-! ## Interrupt entry -/

section

variable {s : State}

/-- A push does not look at the environment's events or the count of draws. -/
theorem pushed_of_env_draws (a : ProgAddr) (s : State) (env : List EnvEvent) (n : Nat) :
    pushed a { s with env := env, draws := n } = { pushed a s with env := env, draws := n } := by
  unfold pushed
  split <;> rfl

theorem enterInterrupt_of_canPush (h : CanPush s) :
    enterInterrupt s = .next { pushed s.pc s with gie := false, pc := s.cfg.intVector } := by
  rw [enterInterrupt, push_of_canPush h]
  rfl

theorem enterInterrupt_of_not_canPush (h : ¬ CanPush s) : enterInterrupt s = .fault (.stackOverflow s.pc) := by
  rw [enterInterrupt, push_of_not_canPush h]

/-- With GIE = 1, not just woken, and a request, the step is the entry, from the state that the look at irq leaves. -/
theorem step_of_entryDue (hcore : CoreRuns s) (hgie : s.gie = true) (hwoke : s.justWoke = false) (hirq : irq s = true) :
    step s = enterInterrupt
      { s with env := s.env.tail, draws := s.draws + if s.cfg.irq = .p84 then 0 else 1 } := by
  have hawake : ({ s with env := s.env.tail } : State).asleep = false := hcore.1
  have hsample : samplesIrq { s with env := s.env.tail } = true := (samplesIrq_iff _).2 ⟨hgie, hwoke⟩
  have hrequest : irq { s with env := s.env.tail } = true := hirq
  rw [step_of_coreRuns hcore, boundary_of_awake hawake, if_pos hsample, if_pos hrequest, afterIrq_eq]
  cases s.cfg.irq <;> rfl

end

/-- Settles O45: the push of the pc decides between the entry and the outcome. -/
theorem interruptEntry : Obligations.InterruptEntry := by
  intro s hcore hgie hwoke hirq
  rw [step_of_entryDue hcore hgie hwoke hirq]
  constructor
  · intro hcan
    have henter := enterInterrupt_of_canPush
      (s := { s with env := s.env.tail, draws := s.draws + if s.cfg.irq = .p84 then 0 else 1 }) hcan
    rwa [pushed_of_env_draws] at henter
  · intro hfull
    exact enterInterrupt_of_not_canPush hfull

/-- Settles O48: RETFIE pops what the entry pushed, the pointer is back at its slot, and GIE was 1 before. -/
theorem retfieResumesTheInterruptedProgram : Obligations.RetfieResumesTheInterruptedProgram := by
  intro s hgie hroom hptr
  refine ⟨_, enterInterrupt_of_canPush (.inl hroom), ?_⟩
  rw [pushed_of_room hroom, exec_retfie, returnFromInterrupt_of_ok (pop_cons rfl), jumpTo_eq, ← hgie]
  cases s.cfg.stackPolicy <;> simp [ptrUp, ptrDown, ptr_up_down hptr]

/-- Settles O46: a boundary that does not look at irq runs the instruction at pc. -/
theorem noEntryWhileMaskedOrJustWoken : Obligations.NoEntryWhileMaskedOrJustWoken := by
  intro s w i hcore hmasked hf hd
  have hentry : NoEntryDue s := hmasked.imp_right .inl
  rw [← atBoundary_of_notSampled hmasked]
  exact (stepRunsTheDecodedInstruction s hcore hentry).1 w i hf hd

theorem irq_of_p84 {s : State} (h : s.cfg.irq = .p84) : irq s = p84Irq s := by
  rw [irq, h]

/-- Settles O47: P84's irq is the disjunction of its four sources. -/
theorem p84IrqIsFourSources : Obligations.P84IrqIsFourSources := by
  intro s h
  rw [irq_of_p84 h]
  simp only [p84Irq, Bool.or_eq_true, Bool.and_eq_true, or_assoc]

/-! ## The requests of P84's sources -/

theorem step_of_event {s : State} {e : EnvEvent} {rest : List EnvEvent} (h : s.env = e :: rest) (hne : e ≠ .run) :
    step s = applyEvent e { s with env := rest } := by
  rw [step, stepOnce, h]
  cases e with
  | run => exact absurd rfl hne
  | _ => rfl

section

variable {s : State}

/-- Asleep the end of SLEEP mode is the mode bit and the mark of the wake-up (R240, log 13). -/
theorem wakeIf_of_asleep (b : Bool) (h : s.asleep = true) :
    wakeIf b s = { s with asleep := !b, justWoke := b || s.justWoke } := by
  cases b with
  | false => simp [wakeIf, ← h]
  | true => simp [wakeIf, h, wake]

theorem edgeSelected_chosen (s : State) : edgeSelected (s.option.getLsbD 6) s = true := by simp [edgeSelected]

theorem edgeSelected_other (s : State) : edgeSelected (!s.option.getLsbD 6) s = false := by simp [edgeSelected]

theorem clearsEeif_iff {e : OutEvent} :
    clearsEeif e = true ↔ ∃ v : Byte, e = .device .eecon1 v ∧ v.getLsbD 4 = false := by
  cases e with
  | port p v => simp [clearsEeif]
  | device id v => simp [clearsEeif]

theorem eeifClearDue_iff (s : State) : eeifClearDue s = true ↔ SoftwareClearsEeif s := by
  simp only [eeifClearDue, List.any_eq_true, clearsEeif_iff, SoftwareClearsEeif]
  constructor
  · rintro ⟨_, hmem, v, rfl, hv⟩
    exact ⟨v, hmem, hv⟩
  · rintro ⟨v, hmem, hv⟩
    exact ⟨_, hmem, v, rfl, hv⟩

/-! Each source's request (R62, R226). -/

theorem setRequest_intEdge (rising : Bool) (h : s.cfg.irq = .p84) :
    setRequest (.intEdge rising) s =
      if edgeSelected rising s then { s with intconLo := s.intconLo ||| 2#7 } else s := by
  simp only [setRequest, h]
  rfl

theorem setRequest_portBChange (h : s.cfg.irq = .p84) :
    setRequest .portBChange s = { s with intconLo := s.intconLo ||| 1#7 } := by
  simp only [setRequest, h]
  rfl

theorem setRequest_timer0Overflow (h : s.cfg.irq = .p84) :
    setRequest .timer0Overflow s = if s.asleep then s else { s with intconLo := s.intconLo ||| 4#7 } := by
  simp only [setRequest, h]
  rfl

theorem setRequest_eepromDone (h : s.cfg.irq = .p84) :
    setRequest .eepromDone s = { s with eeif := true, eeifMark := s.events.length } := by
  simp only [setRequest, h]

/-! Which of them are wake events (R240). -/

theorem wakes_intEdge (rising : Bool) (h : s.cfg.wake = .p84) :
    wakes (.intEdge rising) s = (edgeSelected rising s && s.intconLo.getLsbD 4) := by
  simp only [wakes, h]

theorem wakes_portBChange (h : s.cfg.wake = .p84) : wakes .portBChange s = s.intconLo.getLsbD 3 := by
  simp only [wakes, h]

theorem wakes_eepromDone (h : s.cfg.wake = .p84) : wakes .eepromDone s = s.intconLo.getLsbD 6 := by
  simp only [wakes, h]

theorem wakes_timer0Overflow (h : s.cfg.wake = .p84) : wakes .timer0Overflow s = false := by
  simp only [wakes, h]

/-! What such an event does to a core that is awake, and to one that is asleep. -/

/-- The events that are a request of an interrupt source, or the EEPROM's answer to a cleared one. -/
def isRequest : EnvEvent → Bool
  | .intEdge _ | .portBChange | .timer0Overflow | .eepromDone | .eeifCleared => true
  | .run | .wdtTimeout | .masterClear | .counters _ _ | .overdrive _ _ | .other _ => false

theorem setRequest_asleep (e : EnvEvent) (s : State) : (setRequest e s).asleep = s.asleep := by
  obtain h | ⟨b, h⟩ | ⟨b, n, h⟩ := setRequest_cases e s <;> rw [h]
  rfl

theorem step_of_request {e : EnvEvent} {rest : List EnvEvent} (he : isRequest e = true) (h : s.env = e :: rest) :
    step s = .next (wakeIf (wakes e { s with env := rest }) (setRequest e { s with env := rest })) := by
  rw [step_of_event h (by rintro rfl; cases he)]
  cases e with
  | intEdge | portBChange | timer0Overflow | eepromDone | eeifCleared => rfl
  | _ => cases he

theorem step_of_request_awake {e : EnvEvent} {rest : List EnvEvent} (he : isRequest e = true) (h : s.env = e :: rest)
    (ha : s.asleep = false) : step s = .next (setRequest e { s with env := rest }) := by
  have hawake := (setRequest_asleep e { s with env := rest }).trans ha
  rw [step_of_request he h, wakeIf_of_awake _ hawake]

theorem step_of_request_asleep {e : EnvEvent} {rest : List EnvEvent} (he : isRequest e = true) (h : s.env = e :: rest)
    (ha : s.asleep = true) :
    step s = .next
      { setRequest e { s with env := rest } with
        asleep := !wakes e { s with env := rest }
        justWoke := wakes e { s with env := rest } || (setRequest e { s with env := rest }).justWoke } := by
  have hasleep := (setRequest_asleep e { s with env := rest }).trans ha
  rw [step_of_request he h, wakeIf_of_asleep _ hasleep]

end

/-- Settles O52: the request sets its flag, and its enable bit decides the end of SLEEP mode. -/
theorem interruptRequestsWakeTheCore : Obligations.InterruptRequestsWakeTheCore := by
  intro s rest ha hirq hwake
  have hp : ({ s with env := rest } : State).cfg.irq = .p84 := hirq
  have hw : ({ s with env := rest } : State).cfg.wake = .p84 := hwake
  refine ⟨fun h => ?_, fun h => ?_, fun h => ?_, fun h => ?_, fun h => ?_⟩
  · have hedge := edgeSelected_chosen { s with env := rest }
    rw [step_of_request_asleep rfl h ha, setRequest_intEdge _ hp, wakes_intEdge _ hw, hedge]
    rfl
  · have hedge := edgeSelected_other { s with env := rest }
    rw [step_of_request_asleep rfl h ha, setRequest_intEdge _ hp, wakes_intEdge _ hw, hedge]
    simp [ha]
  · rw [step_of_request_asleep rfl h ha, setRequest_portBChange hp, wakes_portBChange hw]
  · rw [step_of_request_asleep rfl h ha, setRequest_eepromDone hp, wakes_eepromDone hw]
  · rw [step_of_request_asleep rfl h ha, setRequest_timer0Overflow hp, wakes_timer0Overflow hw, if_pos ha]
    simp [ha]

/-- Settles O53: awake nothing is to be ended, so the request is all that the event does. -/
theorem eventsSetTheirFlagsWhileAwake : Obligations.EventsSetTheirFlagsWhileAwake := by
  intro s rest ha hirq
  have hp : ({ s with env := rest } : State).cfg.irq = .p84 := hirq
  refine ⟨fun h => ?_, fun h => ?_, fun h => ?_, fun h => ?_, fun h => ?_, fun h hclear => ?_, fun h hclear => ?_⟩
  · have hedge := edgeSelected_chosen { s with env := rest }
    rw [step_of_request_awake rfl h ha, setRequest_intEdge _ hp, if_pos hedge]
  · have hedge := edgeSelected_other { s with env := rest }
    rw [step_of_request_awake rfl h ha, setRequest_intEdge _ hp, hedge]
    rfl
  · rw [step_of_request_awake rfl h ha, setRequest_portBChange hp]
  · rw [step_of_request_awake rfl h ha, setRequest_timer0Overflow hp]
    simp [ha]
  · rw [step_of_request_awake rfl h ha, setRequest_eepromDone hp]
  · have hdue : eeifClearDue { s with env := rest } = true := (eeifClearDue_iff _).2 hclear
    rw [step_of_request_awake rfl h ha, setRequest_eeifCleared _ hp, hdue]
    simp
  · have hdue : eeifClearDue { s with env := rest } = false := Bool.eq_false_iff.2 (mt (eeifClearDue_iff _).1 hclear)
    rw [step_of_request_awake rfl h ha, setRequest_eeifCleared _ hp, hdue]
    simp

/-! ## The WDT time-out and the reset it makes -/

section

variable {s : State}

theorem wdtTimeout_of_disabled (h : s.cfg.wdtEnabled = false) : wdtTimeout s = .next s := by simp [wdtTimeout, h]

theorem wdtTimeout_of_asleep (h : s.cfg.wdtEnabled = true) (ha : s.asleep = true) :
    wdtTimeout s = .next { s with toBit := false, asleep := false, justWoke := true } := by
  simp [wdtTimeout, h, ha, wake]

theorem wdtTimeout_of_report (h : s.cfg.wdtEnabled = true) (ha : s.asleep = false) (hp : s.cfg.wdtReset = .report) :
    wdtTimeout s = .fault (.wdtReset s.pc) := by
  simp [wdtTimeout, h, ha, hp]

theorem wdtTimeout_of_restart (h : s.cfg.wdtEnabled = true) (ha : s.asleep = false) (hp : s.cfg.wdtReset = .restart) :
    wdtTimeout s = .next (restart false true s) := by
  simp [wdtTimeout, h, ha, hp]

/-- The slots are listed anew from the first pointer on: a rotation, which moves no contents (R252, R50). -/
theorem stackSlot_restart (to' pd : Bool) (hlisted : s.stack.length + s.stale.length = s.cfg.stackDepth)
    (hptr : s.stackPtr < s.cfg.stackDepth) {k : Nat} (hk : k < s.cfg.stackDepth) :
    stackSlot (restart to' pd s) k = stackSlot s k := by
  have hlen : (s.stack ++ s.stale).length = s.cfg.stackDepth := by simpa using hlisted
  have hrot : (restart to' pd s).stale = (s.stack ++ s.stale).rotate s.stackPtr :=
    (List.rotate_eq_drop_append_take (by omega)).symm
  have hslot : s.cfg.stackDepth - 1 - k < s.cfg.stackDepth := by omega
  simp only [stackSlot, restart_stack, restart_stackPtr, restart_cfg, List.nil_append, Nat.zero_add, hrot]
  rw [Nat.mod_eq_of_lt hslot, List.getElem?_rotate (by omega), hlen, Nat.add_comm]

/-- What a reset in the middle of a run leaves (R251, R252, R68). -/
theorem restart_leaves (to' pd : Bool) (s : State) (rest : List EnvEvent) :
    ResetLeaves s (restart to' pd { s with env := rest }) rest to' pd where
  pc := rfl
  stack := rfl
  pointer := rfl
  slots hlisted hptr _ hk := stackSlot_restart (s := { s with env := rest }) to' pd hlisted hptr hk
  modes := ⟨rfl, rfl⟩
  counts := ⟨rfl, rfl⟩
  powerBits := ⟨rfl, rfl⟩
  intcon := by
    constructor
    · show (s.intconLo &&& 1#7).extractLsb' 1 6 = 0#6
      rw [BitVec.extractLsb'_and, show (1#7).extractLsb' 1 6 = 0#6 by decide, BitVec.and_zero]
    · simp
  control := ⟨rfl, rfl, rfl, rfl, rfl⟩
  data := ⟨rfl, rfl, rfl, rfl, rfl, rfl⟩
  cells := ⟨rfl, rfl⟩
  arguments := ⟨rfl, rfl, rfl⟩

end

/-- Settles O54: the four cases of the time-out, the third by what a reset leaves. -/
theorem watchdogTimeout : Obligations.WatchdogTimeout := by
  intro s rest henv
  rw [show step s = wdtTimeout { s with env := rest } from step_of_event henv (by simp)]
  exact ⟨fun hon ha => wdtTimeout_of_asleep hon ha, fun hon ha hp => wdtTimeout_of_report hon ha hp,
    fun hon ha hp => ⟨_, wdtTimeout_of_restart hon ha hp, restart_leaves false true s rest⟩,
    fun hoff => wdtTimeout_of_disabled hoff⟩

end Sys2Proof.Machine

namespace Sys2Proof.Machine

/-! ## The master clear -/

section

variable {s : State}

theorem masterClear_of_report (h : s.cfg.masterClear = .report) : masterClear s = .fault (.externalReset s.pc) := by
  simp only [masterClear, h]

/-- Out of SLEEP the reset itself gives TO and PD (R252). -/
theorem masterClear_of_asleep (h : s.cfg.masterClear = .restart) (ha : s.asleep = true) :
    masterClear s = .next (restart true false s) := by
  simp only [masterClear, h, ha, if_true]

/-- In normal operation the reset gives TO and PD the values that they had (R252). -/
theorem masterClear_of_awake (h : s.cfg.masterClear = .restart) (ha : s.asleep = false) :
    masterClear s = .next (restart s.toBit s.pdBit s) := by
  simp [masterClear, h, ha]

end

/-- Settles O55: the policy decides between the outcome and the reset, and SLEEP mode between the reset's two values of
TO and PD; either way the rest is what a reset leaves. -/
theorem masterClearRestarts : Obligations.MasterClearRestarts := by
  intro s rest henv
  have hstep : step s = masterClear { s with env := rest } := step_of_event henv (by simp)
  refine ⟨fun hpolicy => ?_, fun hpolicy => hstep.trans (masterClear_of_report hpolicy)⟩
  cases hsleep : s.asleep with
  | false =>
    have hnext := hstep.trans (masterClear_of_awake hpolicy hsleep)
    exact ⟨_, hnext, fun _ => restart_leaves s.toBit s.pdBit s rest, nofun⟩
  | true =>
    have hnext := hstep.trans (masterClear_of_asleep hpolicy hsleep)
    exact ⟨_, hnext, nofun, fun _ => restart_leaves true false s rest⟩

/-! ## The state after reset -/

/-- TO and PD are the only status bits set at power-on (R68, R61). -/
theorem statusImage_reset : statusImage State.reset = 0b00011000#8 := by decide

/-- Settles O56: the control bits of the status byte by its image, and the other components by the state's own fields. -/
theorem resetLeavesTheSpecsValues : Obligations.ResetLeavesTheSpecsValues := by
  have hcontrol : (statusImage State.reset).extractLsb' 3 5 = 0b00011#5 := by
    rw [statusImage_reset]
    rfl
  exact ⟨rfl, rfl, rfl, rfl, rfl, rfl, rfl, hcontrol, rfl, rfl, rfl, rfl, rfl⟩

end Sys2Proof.Machine
